-- ==== Sys2Proof/Word.lean ====
section
/-! DEFINITION. The words of the CHIP-8 core: bytes, 16-bit words, the field widths of an opcode (R8, R20, R60, R61). -/

namespace Sys2Proof

/-- A byte of memory or a general register (R20, R30). -/
abbrev Byte := BitVec 8

/-- A 16-bit value: an opcode, `I`, `PC`, a stack slot, `fault_info` (R22, R23, R25, R33, R60). -/
abbrev Word := BitVec 16

/-- The 12-bit address field `NNN` (R61). -/
abbrev Addr := BitVec 12

/-- A 4-bit field of an opcode (R61). -/
abbrev Nibble := BitVec 4

/-- The number of a general register V0 to VF (R20: "register index always in [0,15]"). -/
abbrev Reg := Fin 16

/-- The number of a key of the Input Latch (R34). -/
abbrev Key := Fin 16

end Sys2Proof
end

