-- ==== Sys2Proof/Syntax.lean ====
section
/-! DEFINITION. The 34 instructions of the opcode map (R65), one constructor per row of spec/opcode_table.json, in its
order. A constructor carries exactly the fields its pattern has (R61, R74). -/

namespace Sys2Proof

/-- A decoded instruction: the descriptor the Decoder passes to the Executor (R64, R74). -/
inductive Instr where
  /-- `00E0`: clear the display (R131). -/
  | cls
  /-- `00EE`: return from subroutine (R81). -/
  | ret
  /-- `1NNN`: jump (R82). -/
  | jp (nnn : Addr)
  /-- `2NNN`: call subroutine (R83). -/
  | call (nnn : Addr)
  /-- `3XNN`: skip if register equals immediate (R84). -/
  | sei (x : Reg) (nn : Byte)
  /-- `4XNN`: skip if register differs from immediate (R85). -/
  | snei (x : Reg) (nn : Byte)
  /-- `5XY0`: skip if registers equal (R86). -/
  | ser (x y : Reg)
  /-- `6XNN`: load immediate (R91). -/
  | ldi (x : Reg) (nn : Byte)
  /-- `7XNN`: add immediate, no flag (R92). -/
  | addi (x : Reg) (nn : Byte)
  /-- `8XY0`: copy register (R93). -/
  | mov (x y : Reg)
  /-- `8XY1`: bitwise or (R94). -/
  | or (x y : Reg)
  /-- `8XY2`: bitwise and (R95). -/
  | and (x y : Reg)
  /-- `8XY3`: bitwise exclusive or (R96). -/
  | xor (x y : Reg)
  /-- `8XY4`: add with carry flag (R97). -/
  | add (x y : Reg)
  /-- `8XY5`: subtract with no-borrow flag (R98). -/
  | sub (x y : Reg)
  /-- `8XY6`: shift right by one (R99). -/
  | shr (x y : Reg)
  /-- `8XY7`: reverse subtract with no-borrow flag (R100). -/
  | subn (x y : Reg)
  /-- `8XYE`: shift left by one (R101). -/
  | shl (x y : Reg)
  /-- `9XY0`: skip if registers differ (R87). -/
  | sner (x y : Reg)
  /-- `ANNN`: load the index register (R111). -/
  | lda (nnn : Addr)
  /-- `BNNN`: jump with offset V0 (R88). -/
  | jpv0 (nnn : Addr)
  /-- `CXNN`: random byte under mask (R102). -/
  | rnd (x : Reg) (nn : Byte)
  /-- `DXYN`: draw a sprite of `N` rows (R132). -/
  | drw (x y : Reg) (n : Nibble)
  /-- `EX9E`: skip if key pressed (R125). -/
  | skp (x : Reg)
  /-- `EXA1`: skip if key not pressed (R126). -/
  | sknp (x : Reg)
  /-- `FX07`: read the delay timer (R121). -/
  | lddt (x : Reg)
  /-- `FX0A`: wait for a key press (R122). -/
  | wkey (x : Reg)
  /-- `FX15`: set the delay timer (R123). -/
  | stdt (x : Reg)
  /-- `FX18`: set the sound timer (R124). -/
  | stst (x : Reg)
  /-- `FX1E`: add register to the index register (R112). -/
  | adda (x : Reg)
  /-- `FX29`: point the index register at a font glyph (R113). -/
  | font (x : Reg)
  /-- `FX33`: store decimal digits (R114). -/
  | bcd (x : Reg)
  /-- `FX55`: store registers V0 to VX (R115). -/
  | stm (x : Reg)
  /-- `FX65`: load registers V0 to VX (R116). -/
  | ldm (x : Reg)
  deriving DecidableEq, Repr

end Sys2Proof
end

