-- ==== Sys2Proof/WellFormed.lean ====
section
/-! DEFINITION. Which words are well-formed instructions, by the match and mask columns of the opcode map (R65), written
independently of the decoder. A term of `Instr` needs no check of its own: its fields have the widths of R61 by type. -/

namespace Sys2Proof

/-- The mnemonic of an instruction, as R65 and spec/opcode_table.json spell it. -/
def Instr.mnemonic : Instr → String
  | .cls => "CLS"
  | .ret => "RET"
  | .jp _ => "JP"
  | .call _ => "CALL"
  | .sei _ _ => "SEI"
  | .snei _ _ => "SNEI"
  | .ser _ _ => "SER"
  | .ldi _ _ => "LDI"
  | .addi _ _ => "ADDI"
  | .mov _ _ => "MOV"
  | .or _ _ => "OR"
  | .and _ _ => "AND"
  | .xor _ _ => "XOR"
  | .add _ _ => "ADD"
  | .sub _ _ => "SUB"
  | .shr _ _ => "SHR"
  | .subn _ _ => "SUBN"
  | .shl _ _ => "SHL"
  | .sner _ _ => "SNER"
  | .lda _ => "LDA"
  | .jpv0 _ => "JPV0"
  | .rnd _ _ => "RND"
  | .drw _ _ _ => "DRW"
  | .skp _ => "SKP"
  | .sknp _ => "SKNP"
  | .lddt _ => "LDDT"
  | .wkey _ => "WKEY"
  | .stdt _ => "STDT"
  | .stst _ => "STST"
  | .adda _ => "ADDA"
  | .font _ => "FONT"
  | .bcd _ => "BCD"
  | .stm _ => "STM"
  | .ldm _ => "LDM"

/-- A row of the opcode map (R65). -/
structure OpcodeRow where
  /-- The mnemonic column. -/
  mnemonic : String
  /-- The match column. -/
  pattern : Word
  /-- The mask column. -/
  mask : Word
  deriving DecidableEq, Repr

/-- "a word `op` is the instruction exactly when `op AND mask == match`" (R65). -/
def OpcodeRow.covers (r : OpcodeRow) (w : Word) : Bool :=
  w &&& r.mask == r.pattern

/-- The rows of R65 for the literal words, the control family and the register, byte format. -/
def opcodeRowsLow : List OpcodeRow :=
  [⟨"CLS", 0x00E0, 0xFFFF⟩, ⟨"RET", 0x00EE, 0xFFFF⟩, ⟨"JP", 0x1000, 0xF000⟩, ⟨"CALL", 0x2000, 0xF000⟩,
   ⟨"SEI", 0x3000, 0xF000⟩, ⟨"SNEI", 0x4000, 0xF000⟩, ⟨"SER", 0x5000, 0xF00F⟩, ⟨"LDI", 0x6000, 0xF000⟩,
   ⟨"ADDI", 0x7000, 0xF000⟩]

/-- The rows of R65 for family 8 and 9. -/
def opcodeRowsAlu : List OpcodeRow :=
  [⟨"MOV", 0x8000, 0xF00F⟩, ⟨"OR", 0x8001, 0xF00F⟩, ⟨"AND", 0x8002, 0xF00F⟩, ⟨"XOR", 0x8003, 0xF00F⟩,
   ⟨"ADD", 0x8004, 0xF00F⟩, ⟨"SUB", 0x8005, 0xF00F⟩, ⟨"SHR", 0x8006, 0xF00F⟩, ⟨"SUBN", 0x8007, 0xF00F⟩,
   ⟨"SHL", 0x800E, 0xF00F⟩, ⟨"SNER", 0x9000, 0xF00F⟩]

/-- The rows of R65 for families A to F. -/
def opcodeRowsHigh : List OpcodeRow :=
  [⟨"LDA", 0xA000, 0xF000⟩, ⟨"JPV0", 0xB000, 0xF000⟩, ⟨"RND", 0xC000, 0xF000⟩, ⟨"DRW", 0xD000, 0xF000⟩,
   ⟨"SKP", 0xE09E, 0xF0FF⟩, ⟨"SKNP", 0xE0A1, 0xF0FF⟩, ⟨"LDDT", 0xF007, 0xF0FF⟩, ⟨"WKEY", 0xF00A, 0xF0FF⟩,
   ⟨"STDT", 0xF015, 0xF0FF⟩, ⟨"STST", 0xF018, 0xF0FF⟩, ⟨"ADDA", 0xF01E, 0xF0FF⟩, ⟨"FONT", 0xF029, 0xF0FF⟩,
   ⟨"BCD", 0xF033, 0xF0FF⟩, ⟨"STM", 0xF055, 0xF0FF⟩, ⟨"LDM", 0xF065, 0xF0FF⟩]

/-- The opcode map: the 34 rows of R65 in its order. -/
def opcodeTable : List OpcodeRow :=
  opcodeRowsLow ++ opcodeRowsAlu ++ opcodeRowsHigh

/-- A word is a well-formed instruction word when a row of R65 covers it; every other word is illegal (R66). -/
def wordWellFormed (w : Word) : Bool :=
  opcodeTable.any (fun r => r.covers w)

end Sys2Proof
end

