-- ==== Sys2Proof/Decode.lean ====
section
/-! DEFINITION. The Decoder (R61 to R67) and, after it, the encoder written from the same encodings (R62, R65). -/

namespace Sys2Proof

/-! ### Fields (R61) -/

/-- `F = op[15:12]`, the instruction family. -/
def fieldF (op : Word) : Nibble := op.extractLsb' 12 4

/-- `X = op[11:8]`, a register number. -/
def fieldX (op : Word) : Reg := (op.extractLsb' 8 4).toFin

/-- `Y = op[7:4]`, a register number. -/
def fieldY (op : Word) : Reg := (op.extractLsb' 4 4).toFin

/-- `N = op[3:0]`. -/
def fieldN (op : Word) : Nibble := op.extractLsb' 0 4

/-- `NN = op[7:0]`. -/
def fieldNN (op : Word) : Byte := op.extractLsb' 0 8

/-- `NNN = op[11:0]`. -/
def fieldNNN (op : Word) : Addr := op.extractLsb' 0 12

/-! ### Decoding (R64) -/

/-- The Decoder's result: one of the 34 instructions, or `Invalid` (R64). -/
inductive Descriptor where
  /-- A recognised instruction with its fields. -/
  | valid (i : Instr)
  /-- `Invalid`: the word matches no row of R65; executing it raises `InvalidOpcode` (R66). -/
  | invalid
  deriving DecidableEq, Repr

/-- Family 8: selected by `N` (R64). -/
def decodeAlu (op : Word) : Descriptor :=
  match fieldN op with
  | 0x0#4 => .valid (.mov (fieldX op) (fieldY op))
  | 0x1#4 => .valid (.or (fieldX op) (fieldY op))
  | 0x2#4 => .valid (.and (fieldX op) (fieldY op))
  | 0x3#4 => .valid (.xor (fieldX op) (fieldY op))
  | 0x4#4 => .valid (.add (fieldX op) (fieldY op))
  | 0x5#4 => .valid (.sub (fieldX op) (fieldY op))
  | 0x6#4 => .valid (.shr (fieldX op) (fieldY op))
  | 0x7#4 => .valid (.subn (fieldX op) (fieldY op))
  | 0xE#4 => .valid (.shl (fieldX op) (fieldY op))
  | _ => .invalid

/-- Family E: selected by `NN` (R64). -/
def decodeKey (op : Word) : Descriptor :=
  match fieldNN op with
  | 0x9E#8 => .valid (.skp (fieldX op))
  | 0xA1#8 => .valid (.sknp (fieldX op))
  | _ => .invalid

/-- Family F: selected by `NN` (R64). -/
def decodeMisc (op : Word) : Descriptor :=
  match fieldNN op with
  | 0x07#8 => .valid (.lddt (fieldX op))
  | 0x0A#8 => .valid (.wkey (fieldX op))
  | 0x15#8 => .valid (.stdt (fieldX op))
  | 0x18#8 => .valid (.stst (fieldX op))
  | 0x1E#8 => .valid (.adda (fieldX op))
  | 0x29#8 => .valid (.font (fieldX op))
  | 0x33#8 => .valid (.bcd (fieldX op))
  | 0x55#8 => .valid (.stm (fieldX op))
  | 0x65#8 => .valid (.ldm (fieldX op))
  | _ => .invalid

/-- The nibble decoding, by family; family 0 holds no instruction beside the two literal words (R64, R67). -/
def decodeFamily (op : Word) : Descriptor :=
  match fieldF op with
  | 0x1#4 => .valid (.jp (fieldNNN op))
  | 0x2#4 => .valid (.call (fieldNNN op))
  | 0x3#4 => .valid (.sei (fieldX op) (fieldNN op))
  | 0x4#4 => .valid (.snei (fieldX op) (fieldNN op))
  | 0x5#4 => if fieldN op = 0x0#4 then .valid (.ser (fieldX op) (fieldY op)) else .invalid
  | 0x6#4 => .valid (.ldi (fieldX op) (fieldNN op))
  | 0x7#4 => .valid (.addi (fieldX op) (fieldNN op))
  | 0x8#4 => decodeAlu op
  | 0x9#4 => if fieldN op = 0x0#4 then .valid (.sner (fieldX op) (fieldY op)) else .invalid
  | 0xA#4 => .valid (.lda (fieldNNN op))
  | 0xB#4 => .valid (.jpv0 (fieldNNN op))
  | 0xC#4 => .valid (.rnd (fieldX op) (fieldNN op))
  | 0xD#4 => .valid (.drw (fieldX op) (fieldY op) (fieldN op))
  | 0xE#4 => decodeKey op
  | 0xF#4 => decodeMisc op
  | _ => .invalid

/-- `Decode(op)` (R64): the two literal words by exact match, before the nibble decoding. -/
def decode (op : Word) : Descriptor :=
  if op = 0x00E0#16 then .valid .cls
  else if op = 0x00EE#16 then .valid .ret
  else decodeFamily op

/-- Why a byte sequence is not an instruction. -/
inductive DecodeError where
  /-- Fewer than two bytes are left (R60: every instruction is two bytes). -/
  | truncated
  /-- The word formed by the next two bytes decodes to `Invalid` (R66). -/
  | invalidOpcode (op : Word)
  deriving DecidableEq, Repr

/-- The word made of two consecutive bytes, high byte at the lower address (R44, R60). -/
def wordOfBytes (hi lo : Byte) : Word := hi ++ lo

/-- Reads one instruction from a byte sequence and answers the rest of the sequence (R44, R60, R64). -/
def decodeBytes : List Byte → Except DecodeError (Instr × List Byte)
  | hi :: lo :: rest =>
    match decode (wordOfBytes hi lo) with
    | .valid i => .ok (i, rest)
    | .invalid => .error (.invalidOpcode (wordOfBytes hi lo))
  | _ => .error .truncated

/-! ### Encoding (R62, R65) -/

/-- The four bits of a register number in an opcode (R61). -/
def regBits (x : Reg) : Nibble := BitVec.ofFin x

/-- Format `A`: `F NNN` (R62). -/
def encodeA (f : Nibble) (nnn : Addr) : Word := f ++ nnn

/-- Format `XB`, and format `XS` with a selector byte: `F X NN` (R62). -/
def encodeXB (f : Nibble) (x : Reg) (nn : Byte) : Word := f ++ regBits x ++ nn

/-- Format `XYN`, and format `XY` with a selector nibble: `F X Y N` (R62). -/
def encodeXYN (f : Nibble) (x y : Reg) (n : Nibble) : Word := f ++ regBits x ++ regBits y ++ n

/-- The word of an instruction (R65). -/
def encode : Instr → Word
  | .cls => 0x00E0
  | .ret => 0x00EE
  | .jp nnn => encodeA 0x1 nnn
  | .call nnn => encodeA 0x2 nnn
  | .sei x nn => encodeXB 0x3 x nn
  | .snei x nn => encodeXB 0x4 x nn
  | .ser x y => encodeXYN 0x5 x y 0x0
  | .ldi x nn => encodeXB 0x6 x nn
  | .addi x nn => encodeXB 0x7 x nn
  | .mov x y => encodeXYN 0x8 x y 0x0
  | .or x y => encodeXYN 0x8 x y 0x1
  | .and x y => encodeXYN 0x8 x y 0x2
  | .xor x y => encodeXYN 0x8 x y 0x3
  | .add x y => encodeXYN 0x8 x y 0x4
  | .sub x y => encodeXYN 0x8 x y 0x5
  | .shr x y => encodeXYN 0x8 x y 0x6
  | .subn x y => encodeXYN 0x8 x y 0x7
  | .shl x y => encodeXYN 0x8 x y 0xE
  | .sner x y => encodeXYN 0x9 x y 0x0
  | .lda nnn => encodeA 0xA nnn
  | .jpv0 nnn => encodeA 0xB nnn
  | .rnd x nn => encodeXB 0xC x nn
  | .drw x y n => encodeXYN 0xD x y n
  | .skp x => encodeXB 0xE x 0x9E
  | .sknp x => encodeXB 0xE x 0xA1
  | .lddt x => encodeXB 0xF x 0x07
  | .wkey x => encodeXB 0xF x 0x0A
  | .stdt x => encodeXB 0xF x 0x15
  | .stst x => encodeXB 0xF x 0x18
  | .adda x => encodeXB 0xF x 0x1E
  | .font x => encodeXB 0xF x 0x29
  | .bcd x => encodeXB 0xF x 0x33
  | .stm x => encodeXB 0xF x 0x55
  | .ldm x => encodeXB 0xF x 0x65

/-- The high byte of a word, the one at the lower address (R44). -/
def highByte (w : Word) : Byte := w.extractLsb' 8 8

/-- The low byte of a word, the one at the higher address (R44). -/
def lowByte (w : Word) : Byte := w.extractLsb' 0 8

/-- The two bytes of an instruction as memory holds them (R44, R46). -/
def encodeBytes (i : Instr) : List Byte := [highByte (encode i), lowByte (encode i)]

/-- The word whose bits are `w` as spec/opcode_table.json numbers them; bits at and above `nbits` are 0. -/
def tableWord (nbits w : Nat) : Word := BitVec.ofNat 16 (w % 2 ^ nbits)

/-- The instruction the decoder reads from the bytes of `tableWord nbits w`, laid out as memory holds them. -/
def decodeTableWord (nbits w : Nat) : Option Instr :=
  match decodeBytes [highByte (tableWord nbits w), lowByte (tableWord nbits w)] with
  | .ok (i, _) => some i
  | .error _ => none

end Sys2Proof
end

