-- ==== Sys2Proof/Config.lean ====
section
/-! DEFINITION. What is fixed for one machine (the parameters the spec leaves open: R4, R5) and the one value the spec
leaves free at every use (the random byte, R155). -/

namespace Sys2Proof

/-- The two values of `shift_quirk_mode` (R5, R103). -/
inductive ShiftMode where
  /-- `SHIFT_VY`, the canonical convention: 8XY6 and 8XYE shift `V[Y]`. -/
  | shiftVY
  /-- `SHIFT_VX`: 8XY6 and 8XYE shift `V[X]`. -/
  | shiftVX
  deriving DecidableEq, Repr

/-- The parameters of a machine (R4, R5). They stand in `State.config`, which no step writes, so that a statement about
every state holds for every choice of them (log entry 3). -/
structure Config where
  /-- `shift_quirk_mode`: a constant of the run (R5). -/
  shiftQuirkMode : ShiftMode
  /-- `FONT_BASE`; the type is the spec's constraint `FONT_BASE + 80 <= 512` (R4). -/
  fontBase : Fin 433
  /-- `FONT_DATA`: 16 glyphs of 5 bytes (R4, R31). -/
  fontData : Vector Byte 80
  deriving DecidableEq, Repr

/-- The Random Source's answer to draw number `n` when no answer has been injected: a free value (R155: "a free input of
that `Step`, any value 0 to 255, under no law"). It has no body, so nothing can be proved of it (log entry 1). -/
opaque Config.randomByte : Nat → Byte

end Sys2Proof
end

