-- ==== Sys2Proof/Machine/Defaults.lean ====
section
/-! DEFINITION. The defaults of the parameters (R4, R5, R31) and what a byte of memory that nothing has written reads as
(R30). -/

namespace Sys2Proof.Machine

/-- Glyphs 0 to 7 of the default `FONT_DATA` (R31). -/
def defaultGlyphsLow : Vector Byte 40 :=
  #v[0xF0, 0x90, 0x90, 0x90, 0xF0,
     0x20, 0x60, 0x20, 0x20, 0x70,
     0xF0, 0x10, 0xF0, 0x80, 0xF0,
     0xF0, 0x10, 0xF0, 0x10, 0xF0,
     0x90, 0x90, 0xF0, 0x10, 0x10,
     0xF0, 0x80, 0xF0, 0x10, 0xF0,
     0xF0, 0x80, 0xF0, 0x90, 0xF0,
     0xF0, 0x10, 0x20, 0x40, 0x40]

/-- Glyphs 8 to F of the default `FONT_DATA` (R31). -/
def defaultGlyphsHigh : Vector Byte 40 :=
  #v[0xF0, 0x90, 0xF0, 0x90, 0xF0,
     0xF0, 0x90, 0xF0, 0x10, 0xF0,
     0xF0, 0x90, 0xF0, 0x90, 0x90,
     0xE0, 0x90, 0xE0, 0x90, 0xE0,
     0xF0, 0x80, 0x80, 0x80, 0xF0,
     0xE0, 0x90, 0x90, 0x90, 0xE0,
     0xF0, 0x80, 0xF0, 0x80, 0xF0,
     0xF0, 0x80, 0xF0, 0x80, 0x80]

/-- The default `FONT_DATA`: the table of R31 (PRESUMED: the spec supplies it from general knowledge, D5; log entry 3). -/
def defaultFontData : Vector Byte 80 := defaultGlyphsLow ++ defaultGlyphsHigh

/-- The parameters at their defaults: `SHIFT_VY`, `FONT_BASE = 0x050` and the font of R31 (R4, R5; log entry 3). -/
def defaultConfig : Config where
  shiftQuirkMode := .shiftVY
  fontBase := 0x050
  fontData := defaultFontData

/-- What a byte of memory that nothing has written reads as: its reset contents, `FONT_DATA` in the 80 bytes at
`FONT_BASE` and 0x00 elsewhere (R30, R31; log entry 4). -/
def resetByte (c : Config) (a : Nat) : Byte :=
  if c.fontBase.val ≤ a ∧ a < c.fontBase.val + 80 then c.fontData[a - c.fontBase.val]?.getD 0 else 0

end Sys2Proof.Machine
end

