-- ==== Sys2Proof/Machine/State.lean ====
section
/-! DEFINITION. The architectural state (10_state.md) as plain data, the fault kinds (R140), the operations of the agents
outside the core (R6), and the state after reset (R170). -/

namespace Sys2Proof.Machine

/-- The five fault kinds, a closed list (R140). Each is TAKEN as a next state: `run_state` becomes FAULTED and the kind
stands in the fault record (R141), so no step answers `Host.Outcome.fault` (log entry 6; safe: the state after the fault is
the one the spec gives). -/
inductive Fault where
  /-- Raised by `Load` when the image is longer than 3584 bytes (R164); safe. -/
  | romTooLarge
  /-- Raised by a fetch, DXYN, FX33, FX55 or FX65 that would touch an address of 4096 or more (R162); safe. -/
  | outOfBoundsMemoryAccess
  /-- Raised by 2NNN when 16 return addresses are on the stack (R163); safe. -/
  | stackOverflow
  /-- Raised by 00EE when the stack is empty (R163); safe. -/
  | stackUnderflow
  /-- Raised by `Step` when the fetched word is no instruction (R161); safe. -/
  | invalidOpcode
  deriving DecidableEq, Repr

/-- Why a step has no meaning in the model. -/
inductive Refusal where
  /-- Raised by an arm of `exec` whose instruction has no meaning yet; no arm is one (safe: the run stops). -/
  | notModelled (mnemonic : String)
  deriving DecidableEq, Repr

/-- `run_state` (R32). -/
inductive RunState where
  /-- Reset done, no image loaded. -/
  | idle
  /-- `Step()` dispatches instructions. -/
  | run
  /-- An FX0A is suspended. -/
  | waitKey
  /-- Stopped by `Halt()`. -/
  | halted
  /-- A fault was raised. -/
  | faulted
  deriving DecidableEq, Repr

/-- The operations of R6, each an atomic transition of the core invoked by an agent outside it (R7). -/
inductive Operation where
  /-- `Reset()`, by the host (R170). -/
  | reset
  /-- `Load(bytes)`, by the program loader (R56). -/
  | load (bytes : List Byte)
  /-- `Step()`, by the driver (R72). -/
  | step
  /-- `Tick()`, by the timer clock (R150). -/
  | tick
  /-- `KeyEvent(k, pressed)`, by the input provider (R153). -/
  | keyEvent (k : Key) (pressed : Bool)
  /-- `Halt()`, by the host (R156). -/
  | halt
  deriving DecidableEq, Repr

/-- The framebuffer: 32 rows, top to bottom, of 64 pixels, left to right; `true` is set (R29). -/
abbrev Framebuffer := Vector (Vector Bool 64) 32

/-- Memory: the cells that differ from their reset contents, addresses strictly rising (R30; log entry 4). -/
abbrev Memory := List Host.Cell

/-- The state of the machine (10_state.md) with the model's own fields `schedule`, `injected` and `drawCount`. -/
structure State where
  /-- V0 to VF; VF is register 15 (R20, R21). -/
  v : Vector Byte 16
  /-- The index register `I` (R22). -/
  i : Word
  /-- The program counter: the address of the next instruction, or of the one suspended or faulted (R23). -/
  pc : Word
  /-- The 16 stack slots (R25). -/
  stack : Vector Word 16
  /-- The number of return addresses on the stack (R26). -/
  sp : Fin 17
  /-- The delay timer (R27). -/
  dt : Byte
  /-- The sound timer (R28). -/
  st : Byte
  /-- The framebuffer (R29). -/
  fb : Framebuffer
  /-- The 4096 bytes of memory (R30, R40). -/
  mem : Memory
  /-- `run_state` (R32). -/
  runState : RunState
  /-- `wait_reg`: the X field of the suspended FX0A (R32). -/
  waitReg : Reg
  /-- `fault_kind`; `none` is code 0 (R33). -/
  faultKind : Option Fault
  /-- `fault_info` (R33). -/
  faultInfo : Word
  /-- The key levels of the Input Latch; `true` is pressed (R34). -/
  keys : Vector Bool 16
  /-- The parameters, constants of the run (R4, R5). -/
  config : Config
  /-- The model's own: the operations the agents invoke next, oldest first (R7; log entry 2). -/
  schedule : List Operation
  /-- The model's own: bytes injected into the Random Source, used before any other (R155; log entry 1). -/
  injected : List Byte
  /-- The model's own: the number of draws made so far (R155; log entry 1). -/
  drawCount : Nat
  deriving DecidableEq, Repr

/-- What a step answers. -/
abbrev Result := Host.Outcome State Fault Refusal

/-- The core after `Reset()` (R170, R171): every piece of core state at its reset value, beside what the core does not own,
the parameters, the key levels, the Random Source and what the agents do next. -/
def State.initial (config : Config) (keys : Vector Bool 16) (schedule : List Operation) (injected : List Byte)
    (drawCount : Nat) : State where
  v := Vector.replicate 16 0
  i := 0
  pc := 0x0200
  stack := Vector.replicate 16 0
  sp := 0
  dt := 0
  st := 0
  fb := Vector.replicate 32 (Vector.replicate 64 false)
  mem := []
  runState := .idle
  waitReg := 0
  faultKind := none
  faultInfo := 0
  keys := keys
  config := config
  schedule := schedule
  injected := injected
  drawCount := drawCount

/-- The machine right after reset: default parameters (log entry 3), every key released (DESIGN CHOICE, log entry 5), no
operation scheduled (log entry 2), no draw injected or made (log entry 1). -/
def State.reset : State :=
  State.initial defaultConfig (Vector.replicate 16 false) [] [] 0

end Sys2Proof.Machine
end

