-- ==== Sys2Proof/Machine/Ops.lean ====
section
/-! DEFINITION. The named operations over registers, stack, memory, display and run state that every meaning is built
from, and taking a fault (R141). No instruction returns from a fault (R144); the operation that leaves FAULTED is
`Reset` (Machine/Agents.lean). -/

namespace Sys2Proof.Machine

/-! ### Registers -/

/-- `V[x]` (R10, R20). -/
def State.reg (s : State) (x : Reg) : Byte := s.v[x.val]

/-- `V[x] <- b` (R10, R20). -/
def State.setReg (s : State) (x : Reg) (b : Byte) : State := { s with v := s.v.set x.val b }

/-- The number of VF (R21). -/
abbrev vf : Reg := 15

/-- `I <- w` (R22). -/
def State.setIndex (s : State) (w : Word) : State := { s with i := w }

/-- `PC <- w` (R23). -/
def State.setPc (s : State) (w : Word) : State := { s with pc := w }

/-- `PC <- PC + 2` (R73). -/
def State.advance (s : State) : State := s.setPc (s.pc + 2)

/-- A conditional skip: `PC + 4` when taken, `PC + 2` when not (R73). -/
def State.skipIf (s : State) (taken : Bool) : State := if taken then s.setPc (s.pc + 4) else s.advance

/-- `DT <- b` (R27). -/
def State.setDelay (s : State) (b : Byte) : State := { s with dt := b }

/-- `ST <- b` (R28). -/
def State.setSound (s : State) (b : Byte) : State := { s with st := b }

/-- `FB` replaced (R29). -/
def State.setDisplay (s : State) (fb : Framebuffer) : State := { s with fb := fb }

/-- `run_state <- r` (R32). -/
def State.setRun (s : State) (r : RunState) : State := { s with runState := r }

/-- `KEYS[k]` (R34). -/
def State.key (s : State) (k : Key) : Bool := s.keys[k.val]

/-- `KEYS[k] <- b` (R34, R153). -/
def State.setKey (s : State) (k : Key) (b : Bool) : State := { s with keys := s.keys.set k.val b }

/-- `wait_reg <- x; run_state <- WAIT_KEY`, PC unchanged (R122). -/
def State.suspend (s : State) (x : Reg) : State := { s with runState := .waitKey, waitReg := x }

/-- The operations still to come, replaced (log entry 2). -/
def State.setSchedule (s : State) (ops : List Operation) : State := { s with schedule := ops }

/-! ### Faults (R11, R140, R141) -/

/-- What `raise <Kind>(info)` records (R11, R33). -/
structure Trap where
  /-- `fault_kind`. -/
  kind : Fault
  /-- `fault_info`. -/
  info : Word
  deriving DecidableEq, Repr

/-- `OutOfBoundsMemoryAccess(addr)` (R42). -/
def outOfBounds (addr : Nat) : Trap := ⟨.outOfBoundsMemoryAccess, BitVec.ofNat 16 addr⟩

/-- Fault entry: "Raising a fault does exactly this" (R141). -/
def State.raise (s : State) (t : Trap) : State :=
  { s with runState := .faulted, faultKind := some t.kind, faultInfo := t.info }

/-- Ends an operation on `s`: the state it computed, or the fault it raised, taken on `s` itself so that none of its other
writes happens (R142). -/
def State.settle (s : State) : Except Trap State → Result
  | .ok t => .next t
  | .error e => .next (s.raise e)

/-- The `fault_kind` output as a 3-bit code (R33, R140). -/
def faultCode : Option Fault → BitVec 3
  | none => 0
  | some .romTooLarge => 1
  | some .outOfBoundsMemoryAccess => 2
  | some .stackOverflow => 3
  | some .stackUnderflow => 4
  | some .invalidOpcode => 5

/-! ### Stack (R25, R26) -/

/-- Push: allowed only when `SP < 16`, otherwise `StackOverflow` (R26). -/
def State.push (s : State) (w : Word) : Except Trap State :=
  if h : s.sp.val < 16 then
    .ok { s with stack := s.stack.set s.sp.val w, sp := ⟨s.sp.val + 1, by omega⟩ }
  else .error ⟨.stackOverflow, 0⟩

/-- Pop: the most recently pushed value and the state without it, allowed only when `SP > 0`, otherwise
`StackUnderflow` (R26). -/
def State.pop (s : State) : Except Trap (Word × State) :=
  if h : 0 < s.sp.val then
    .ok (s.stack[s.sp.val - 1], { s with sp := ⟨s.sp.val - 1, by omega⟩ })
  else .error ⟨.stackUnderflow, 0⟩

/-! ### Memory (R30, R40 to R45) -/

/-- The byte at `a`: the listed cell, else what an unlisted address reads as, `dflt`. -/
def Memory.lookup (dflt : Byte) (a : Nat) : Memory → Byte
  | [] => dflt
  | (k, b) :: rest => if k = a then b else Memory.lookup dflt a rest

/-- The cell list for address `a` alone: no cell when the byte is what an unlisted address reads as. -/
def Memory.cell (dflt : Byte) (a : Nat) (b : Byte) : Memory := if b = dflt then [] else [(a, b)]

/-- Stores `b` at `a`, where an unlisted `a` reads as `dflt`, keeping the canonical form. -/
def Memory.put (dflt : Byte) (a : Nat) (b : Byte) : Memory → Memory
  | [] => Memory.cell dflt a b
  | (k, w) :: rest =>
    if a < k then Memory.cell dflt a b ++ (k, w) :: rest
    else if a = k then Memory.cell dflt a b ++ rest
    else (k, w) :: Memory.put dflt a b rest

/-- The canonical form from address `lo` on: addresses rising and below 4096, no cell equal to its reset contents. -/
def Memory.wfFrom (c : Config) : Nat → Memory → Bool
  | _, [] => true
  | lo, (k, b) :: rest => decide (lo ≤ k) && decide (k < 4096) && (b != resetByte c k) && Memory.wfFrom c (k + 1) rest

/-- The canonical form of a memory (log entry 4). -/
def Memory.wf (c : Config) (m : Memory) : Bool := Memory.wfFrom c 0 m

/-- `MEM[a]`, with no check (R10). -/
def State.byteAt (s : State) (a : Nat) : Byte := Memory.lookup (resetByte s.config a) a s.mem

/-- `MEM[a] <- b`, with no check (R10). -/
def State.putByte (s : State) (a : Nat) (b : Byte) : State :=
  { s with mem := Memory.put (resetByte s.config a) a b s.mem }

/-- Consecutive bytes stored from `a` up, with no check (R56). -/
def State.putBytes (s : State) (a : Nat) : List Byte → State
  | [] => s
  | b :: bs => (s.putByte a b).putBytes (a + 1) bs

/-- `MemRead(addr, 1)` (R42). -/
def State.memRead (s : State) (addr : Nat) : Except Trap Byte :=
  if 4096 ≤ addr then .error (outOfBounds addr) else .ok (s.byteAt addr)

/-- `MemWrite(addr, 1, b)` (R43). -/
def State.memWrite (s : State) (addr : Nat) (b : Byte) : Except Trap State :=
  if 4096 ≤ addr then .error (outOfBounds addr) else .ok (s.putByte addr b)

/-- `MemRead(addr, 2)`: two byte reads in ascending order, combined big-endian (R44). -/
def State.memRead2 (s : State) (addr : Nat) : Except Trap Word :=
  match s.memRead addr with
  | .error e => .error e
  | .ok hi =>
    match s.memRead (addr + 1) with
    | .error e => .error e
    | .ok lo => .ok (wordOfBytes hi lo)

/-- `n` byte reads at ascending addresses from `addr`; the first out of bounds is the one reported (R42, R45, R58). -/
def State.readBytes (s : State) (addr : Nat) : Nat → Except Trap (List Byte)
  | 0 => .ok []
  | n + 1 =>
    match s.memRead addr with
    | .error e => .error e
    | .ok b =>
      match s.readBytes (addr + 1) n with
      | .error e => .error e
      | .ok bs => .ok (b :: bs)

/-- Byte writes at ascending addresses from `addr`; the first out of bounds is the one reported (R43, R45, R58). -/
def State.writeBytes (s : State) (addr : Nat) : List Byte → Except Trap State
  | [] => .ok s
  | b :: bs =>
    match s.memWrite addr b with
    | .error e => .error e
    | .ok t => t.writeBytes (addr + 1) bs

/-- The instruction fetch: `MemRead(PC, 2)` (R44, R72). -/
def State.fetch (s : State) : Except Trap Word := s.memRead2 s.pc.toNat

/-! ### Display (R29, R130, R160) -/

/-- `FB[y][x]` (R29). -/
def Framebuffer.pixel (fb : Framebuffer) (y : Fin 32) (x : Fin 64) : Bool := fb[y.val][x.val]

/-- `FB[y][x] <- b` (R29). -/
def Framebuffer.setPixel (fb : Framebuffer) (y : Fin 32) (x : Fin 64) (b : Bool) : Framebuffer :=
  fb.set y.val (fb[y.val].set x.val b)

/-- Every pixel 0 (R131). -/
def Framebuffer.clear : Framebuffer := Vector.replicate 32 (Vector.replicate 64 false)

/-- The column on which sprite column `c` lands (R130). -/
def wrapColumn (x0 c : Nat) : Fin 64 := Fin.ofNat 64 (x0 + c)

/-- The row on which sprite row `r` lands (R130). -/
def wrapRow (y0 r : Nat) : Fin 32 := Fin.ofNat 32 (y0 + r)

/-- A framebuffer being drawn on and the collision seen so far (R132). -/
structure Canvas where
  /-- The framebuffer. -/
  fb : Framebuffer
  /-- Whether a pixel went from set to unset. -/
  collision : Bool
  deriving DecidableEq, Repr

/-- Toggles one pixel: a pixel that was set is a collision (R132, R133). -/
def Canvas.toggle (cv : Canvas) (y : Fin 32) (x : Fin 64) : Canvas where
  fb := cv.fb.setPixel y x (cv.fb.pixel y x ^^ true)
  collision := cv.collision || cv.fb.pixel y x

/-- Column `c` of a row byte `b`: bit `7 - c` toggles its pixel when it is 1 (R130, R132). -/
def Canvas.plot (x0 : Nat) (y : Fin 32) (b : Byte) (cv : Canvas) (c : Nat) : Canvas :=
  if b.getLsbD (7 - c) then cv.toggle y (wrapColumn x0 c) else cv

/-- One sprite row: columns 0 to 7 (R132). -/
def Canvas.drawRow (x0 : Nat) (y : Fin 32) (b : Byte) (cv : Canvas) : Canvas :=
  (List.range 8).foldl (Canvas.plot x0 y b) cv

/-- The sprite rows from row `r` on (R132). -/
def Canvas.drawRows (x0 y0 : Nat) (cv : Canvas) (r : Nat) : List Byte → Canvas
  | [] => cv
  | b :: bs => (cv.drawRow x0 (wrapRow y0 r) b).drawRows x0 y0 (r + 1) bs

/-- The `FB` output as a flat vector: bit `64*y + x` is `FB[y][x]` (R160). -/
def State.displayPort (s : State) : Vector Bool 2048 :=
  Vector.ofFn fun n : Fin 2048 => s.fb.pixel (Fin.ofNat 32 (n.val / 64)) (Fin.ofNat 64 n.val)

/-! ### Random Source (R155) -/

/-- The byte the next draw answers: the oldest injected byte, else a free value (log entry 1). -/
def State.nextRandom (s : State) : Byte :=
  match s.injected with
  | [] => Config.randomByte s.drawCount
  | r :: _ => r

/-- The state after that draw: exactly one draw is consumed (R102). -/
def State.consumeRandom (s : State) : State :=
  { s with injected := s.injected.tail, drawCount := s.drawCount + 1 }

end Sys2Proof.Machine
end

