-- ==== Sys2Proof/Machine/Operands.lean ====
section
/-! DEFINITION. The operand forms: immediates widened (R63), values taken from the low nibble of a register (R63), the
shift source (R103) and the data address (R45). -/

namespace Sys2Proof.Machine

/-- `zext_16(NNN)` (R63). -/
def zextAddr (nnn : Addr) : Word := nnn.setWidth 16

/-- `zext_16` of a byte (R9). -/
def zextByte (b : Byte) : Word := b.setWidth 16

/-- `V[X][3:0]`: a glyph or key number (R63, R113, R120). -/
def lowNibble (b : Byte) : Fin 16 := Fin.ofNat 16 b.toNat

/-- The key number an EX9E or EXA1 tests (R120). -/
def State.keyNumber (s : State) (x : Reg) : Key := lowNibble (s.reg x)

/-- `FONT_BASE + 5 * d` (R113). -/
def glyphAddress (c : Config) (d : Fin 16) : Word := BitVec.ofNat 16 (c.fontBase.val + 5 * d.val)

/-- `ShiftSource(X, Y)` (R103). -/
def State.shiftSource (s : State) (x y : Reg) : Byte :=
  match s.config.shiftQuirkMode with
  | .shiftVY => s.reg y
  | .shiftVX => s.reg x

/-- The data address of FX33, FX55, FX65 and DXYN: `I`, as an unbounded number (R45, R110). -/
def State.dataAddress (s : State) : Nat := s.i.toNat

/-- `V[0] .. V[X]` in ascending order (R115). -/
def State.regsUpTo (s : State) (x : Reg) : List Byte := s.v.toList.take (x.val + 1)

/-- The decimal digits hundreds, tens, ones of a byte (R114). -/
def bcdDigits (b : Byte) : List Byte :=
  [BitVec.ofNat 8 (b.toNat / 100), BitVec.ofNat 8 (b.toNat / 10 % 10), BitVec.ofNat 8 (b.toNat % 10)]

end Sys2Proof.Machine
end

