-- ==== Sys2Proof/Machine/Agents.lean ====
section
/-! DEFINITION. The operations of the agents other than the driver (R6): `Reset`, `Load`, `Tick`, `KeyEvent`, `Halt`, each
with effect in exactly the run states of R149. -/

namespace Sys2Proof.Machine

/-- `Reset()`, in any run state: every piece of core state to its reset value; the key levels, the parameters and what
belongs to the other agents stay (R170, R34). -/
def State.opReset (s : State) : State :=
  State.initial s.config s.keys s.schedule s.injected s.drawCount

/-- `Load(bytes)`: in IDLE the image at 512 and RUN, or `RomTooLarge`; in every other state no effect (R56, R149; log
entry 7). -/
def State.opLoad (s : State) (bytes : List Byte) : State :=
  match s.runState with
  | .idle =>
    if 3584 < bytes.length then s.raise ⟨.romTooLarge, 0⟩
    else (s.putBytes 512 bytes).setRun .run
  | .run | .waitKey | .halted | .faulted => s

/-- One decrement, held at 0 (R150). -/
def countDown (b : Byte) : Byte := if b = 0 then 0 else b - 1

/-- `Tick()`: both timers, in IDLE, RUN and WAIT_KEY (R150). -/
def State.opTick (s : State) : State :=
  match s.runState with
  | .idle | .run | .waitKey => (s.setDelay (countDown s.dt)).setSound (countDown s.st)
  | .halted | .faulted => s

/-- A `KeyEvent(k, pressed)` is a new press when it is a press and the key was released before it (R154). -/
def State.isNewPress (s : State) (k : Key) (pressed : Bool) : Bool := pressed && !s.key k

/-- The resumption of a suspended FX0A by key `k` (R122, R154). -/
def State.resume (s : State) (k : Key) : State :=
  (s.setReg s.waitReg (BitVec.ofNat 8 k.val)).advance.setRun .run

/-- `KeyEvent(k, pressed)`: the level in every run state; in WAIT_KEY a new press also resumes (R153, R154). -/
def State.opKeyEvent (s : State) (k : Key) (pressed : Bool) : State :=
  match s.runState with
  | .waitKey => if s.isNewPress k pressed then (s.setKey k pressed).resume k else s.setKey k pressed
  | .idle | .run | .halted | .faulted => s.setKey k pressed

/-- `Halt()`: in IDLE, RUN and WAIT_KEY, `run_state` alone (R156). -/
def State.opHalt (s : State) : State :=
  match s.runState with
  | .idle | .run | .waitKey => s.setRun .halted
  | .halted | .faulted => s

end Sys2Proof.Machine
end

