-- ==== Sys2Proof/Machine/Flags.lean ====
section
/-! DEFINITION. Every value an instruction writes to VF as a flag (R21), and the write order of a result and its flag
(R90). -/

namespace Sys2Proof.Machine

/-- A flag as the full byte 0x00 or 0x01 (R90 d). -/
def flagByte (b : Bool) : Byte := if b then 1 else 0

/-- Carry out of bit 7: the exact sum is above 255 (R97). -/
def carryFlag (a b : Byte) : Byte := flagByte (decide (255 < a.toNat + b.toNat))

/-- No borrow in `a - b` (R98, R100). -/
def noBorrowFlag (a b : Byte) : Byte := flagByte (decide (b.toNat ≤ a.toNat))

/-- The bit shifted out at the low end (R99). -/
def lowBitFlag (b : Byte) : Byte := flagByte (b.getLsbD 0)

/-- The bit shifted out at the high end (R101). -/
def highBitFlag (b : Byte) : Byte := flagByte (b.getLsbD 7)

/-- The result to `V[x]` first, the flag to VF second: with `x = 0xF` the flag remains (R90 c). -/
def State.setResultAndFlag (s : State) (x : Reg) (result flag : Byte) : State :=
  (s.setReg x result).setReg vf flag

end Sys2Proof.Machine
end

