-- ==== Sys2Proof/Machine/Alu.lean ====
section
/-! DEFINITION. Register loads, arithmetic, logic, shifts and the random byte (41_alu.md). -/

namespace Sys2Proof.Machine

/-- 6XNN LDI (R91). -/
def execLdi (x : Reg) (nn : Byte) (s : State) : Result := .next (s.setReg x nn).advance

/-- 7XNN ADDI: wraps, writes no flag (R92). -/
def execAddi (x : Reg) (nn : Byte) (s : State) : Result := .next (s.setReg x (s.reg x + nn)).advance

/-- 8XY0 MOV (R93). -/
def execMov (x y : Reg) (s : State) : Result := .next (s.setReg x (s.reg y)).advance

/-- 8XY1 OR: VF is not written as a flag (R94). -/
def execOr (x y : Reg) (s : State) : Result := .next (s.setReg x (s.reg x ||| s.reg y)).advance

/-- 8XY2 AND: VF is not written as a flag (R95). -/
def execAnd (x y : Reg) (s : State) : Result := .next (s.setReg x (s.reg x &&& s.reg y)).advance

/-- 8XY3 XOR: VF is not written as a flag (R96). -/
def execXor (x y : Reg) (s : State) : Result := .next (s.setReg x (s.reg x ^^^ s.reg y)).advance

/-- 8XY4 ADD (R97). -/
def execAdd (x y : Reg) (s : State) : Result :=
  .next (s.setResultAndFlag x (s.reg x + s.reg y) (carryFlag (s.reg x) (s.reg y))).advance

/-- 8XY5 SUB (R98). -/
def execSub (x y : Reg) (s : State) : Result :=
  .next (s.setResultAndFlag x (s.reg x - s.reg y) (noBorrowFlag (s.reg x) (s.reg y))).advance

/-- 8XY6 SHR (R99, R103). -/
def execShr (x y : Reg) (s : State) : Result :=
  .next (s.setResultAndFlag x (s.shiftSource x y >>> 1) (lowBitFlag (s.shiftSource x y))).advance

/-- 8XY7 SUBN (R100). -/
def execSubn (x y : Reg) (s : State) : Result :=
  .next (s.setResultAndFlag x (s.reg y - s.reg x) (noBorrowFlag (s.reg y) (s.reg x))).advance

/-- 8XYE SHL (R101, R103). -/
def execShl (x y : Reg) (s : State) : Result :=
  .next (s.setResultAndFlag x (s.shiftSource x y <<< 1) (highBitFlag (s.shiftSource x y))).advance

/-- CXNN RND: one draw, masked (R102, R155). -/
def execRnd (x : Reg) (nn : Byte) (s : State) : Result :=
  .next (s.consumeRandom.setReg x (s.nextRandom &&& nn)).advance

end Sys2Proof.Machine
end

