-- ==== Sys2Proof/Machine/Control.lean ====
section
/-! DEFINITION. Control transfer, register skips and the stack (40_control_stack.md). -/

namespace Sys2Proof.Machine

/-- 00EE RET (R81). -/
def execRet (s : State) : Result :=
  s.settle (match s.pop with
    | .error e => .error e
    | .ok (target, t) => .ok (t.setPc target))

/-- 1NNN JP (R82). -/
def execJp (nnn : Addr) (s : State) : Result := .next (s.setPc (zextAddr nnn))

/-- 2NNN CALL: pushes the address of the next instruction (R83). -/
def execCall (nnn : Addr) (s : State) : Result :=
  s.settle (match s.push (s.pc + 2) with
    | .error e => .error e
    | .ok t => .ok (t.setPc (zextAddr nnn)))

/-- 3XNN SEI (R84). -/
def execSei (x : Reg) (nn : Byte) (s : State) : Result := .next (s.skipIf (s.reg x == nn))

/-- 4XNN SNEI (R85). -/
def execSnei (x : Reg) (nn : Byte) (s : State) : Result := .next (s.skipIf (s.reg x != nn))

/-- 5XY0 SER (R86). -/
def execSer (x y : Reg) (s : State) : Result := .next (s.skipIf (s.reg x == s.reg y))

/-- 9XY0 SNER (R87). -/
def execSner (x y : Reg) (s : State) : Result := .next (s.skipIf (s.reg x != s.reg y))

/-- BNNN JPV0: the sum is not reduced (R88). -/
def execJpv0 (nnn : Addr) (s : State) : Result := .next (s.setPc (zextAddr nnn + zextByte (s.reg 0)))

end Sys2Proof.Machine
end

