-- ==== Sys2Proof/Machine/Display.lean ====
section
/-! DEFINITION. Display instructions (44_display.md). -/

namespace Sys2Proof.Machine

/-- 00E0 CLS (R131). -/
def execCls (s : State) : Result := .next (s.setDisplay Framebuffer.clear).advance

/-- The canvas after a sprite with rows `rows` is drawn at (`V[X]`, `V[Y]`), both sampled before VF is written (R132). -/
def State.drawSprite (s : State) (x y : Reg) (rows : List Byte) : Canvas :=
  (Canvas.mk s.fb false).drawRows (s.reg x).toNat (s.reg y).toNat 0 rows

/-- The state after that drawing: the pixels, then VF the collision (R132). -/
def State.showCanvas (s : State) (cv : Canvas) : State :=
  (s.setDisplay cv.fb).setReg vf (flagByte cv.collision)

/-- DXYN DRW: `N` rows from `I` up; `N = 0` reads no memory (R132). -/
def execDrw (x y : Reg) (n : Nibble) (s : State) : Result :=
  s.settle (match s.readBytes s.dataAddress n.toNat with
    | .error e => .error e
    | .ok rows => .ok (s.showCanvas (s.drawSprite x y rows)).advance)

end Sys2Proof.Machine
end

