-- ==== Sys2Proof/Machine/IndexMemory.lean ====
section
/-! DEFINITION. Index register and memory instructions (42_memory_index.md). -/

namespace Sys2Proof.Machine

/-- ANNN LDA (R111). -/
def execLda (nnn : Addr) (s : State) : Result := .next (s.setIndex (zextAddr nnn)).advance

/-- FX1E ADDA: modulo 65536, no flag (R112). -/
def execAdda (x : Reg) (s : State) : Result := .next (s.setIndex (s.i + zextByte (s.reg x))).advance

/-- FX29 FONT (R113). -/
def execFont (x : Reg) (s : State) : Result :=
  .next (s.setIndex (glyphAddress s.config (lowNibble (s.reg x)))).advance

/-- FX33 BCD (R114). -/
def execBcd (x : Reg) (s : State) : Result :=
  s.settle (match s.writeBytes s.dataAddress (bcdDigits (s.reg x)) with
    | .error e => .error e
    | .ok t => .ok t.advance)

/-- FX55 STM: `I` is unchanged (R115). -/
def execStm (x : Reg) (s : State) : Result :=
  s.settle (match s.writeBytes s.dataAddress (s.regsUpTo x) with
    | .error e => .error e
    | .ok t => .ok t.advance)

/-- `V[j] <- b` for consecutive registers from number `j` (R116). -/
def State.setRegsFrom (s : State) (j : Nat) : List Byte → State
  | [] => s
  | b :: bs => (s.setReg (Fin.ofNat 16 j) b).setRegsFrom (j + 1) bs

/-- FX65 LDM: `I` is unchanged (R116). -/
def execLdm (x : Reg) (s : State) : Result :=
  s.settle (match s.readBytes s.dataAddress (x.val + 1) with
    | .error e => .error e
    | .ok bs => .ok (s.setRegsFrom 0 bs).advance)

end Sys2Proof.Machine
end

