-- ==== Sys2Proof/Machine/TimerInput.lean ====
section
/-! DEFINITION. Timer and key instructions (43_timer_input.md). -/

namespace Sys2Proof.Machine

/-- FX07 LDDT (R121). -/
def execLddt (x : Reg) (s : State) : Result := .next (s.setReg x s.dt).advance

/-- FX0A WKEY: suspends; the resuming key press finishes it (R122, R154; Machine/Agents.lean). -/
def execWkey (x : Reg) (s : State) : Result := .next (s.suspend x)

/-- FX15 STDT (R123). -/
def execStdt (x : Reg) (s : State) : Result := .next (s.setDelay (s.reg x)).advance

/-- FX18 STST (R124). -/
def execStst (x : Reg) (s : State) : Result := .next (s.setSound (s.reg x)).advance

/-- EX9E SKP: tests the level (R125). -/
def execSkp (x : Reg) (s : State) : Result := .next (s.skipIf (s.key (s.keyNumber x)))

/-- EXA1 SKNP: the complement of SKP (R126). -/
def execSknp (x : Reg) (s : State) : Result := .next (s.skipIf (!s.key (s.keyNumber x)))

end Sys2Proof.Machine
end

