-- ==== Sys2Proof/Machine/Cycle.lean ====
section
/-! DEFINITION. The instruction cycle `Step()` (R72) and what one transition of the machine is (R7). -/

namespace Sys2Proof.Machine

/-- `Decode`, then `Execute` or `InvalidOpcode(op)` (R72). -/
def runWord (op : Word) (s : State) : Result :=
  match decode op with
  | .valid i => exec i s
  | .invalid => .next (s.raise ⟨.invalidOpcode, op⟩)

/-- Fetch, decode, execute: the first check that fails is the fault (R72, R143). -/
def dispatchOne (s : State) : Result :=
  match s.fetch with
  | .error e => .next (s.raise e)
  | .ok op => runWord op s

/-- `Step()`: dispatches one instruction in RUN, changes nothing in every other run state (R72). -/
def driverStep (s : State) : Result :=
  match s.runState with
  | .run => dispatchOne s
  | .idle | .waitKey | .halted | .faulted => .next s

/-- One operation of R6. -/
def perform (op : Operation) (s : State) : Result :=
  match op with
  | .reset => .next s.opReset
  | .load bytes => .next (s.opLoad bytes)
  | .step => driverStep s
  | .tick => .next s.opTick
  | .keyEvent k pressed => .next (s.opKeyEvent k pressed)
  | .halt => .next s.opHalt

/-- One transition of the machine: the oldest scheduled operation, and when none is scheduled the driver's `Step()` (R7;
log entry 2). -/
def transition (s : State) : Result :=
  match s.schedule with
  | [] => driverStep s
  | op :: rest => perform op (s.setSchedule rest)

/-- `s` with the word `op` where the very next transition fetches: stored at `PC` (at 0x200 when no word can be fetched at
`PC`), in RUN, with no operation scheduled before it (log entry 11). -/
def placeWord (op : Word) (s : State) : State :=
  let slot := if s.pc.toNat ≤ 4094 then s.pc else 0x0200
  (((s.setPc slot).putBytes slot.toNat [highByte op, lowByte op]).setRun .run).setSchedule []

end Sys2Proof.Machine
end

