-- ==== Sys2Proof/Machine/Step.lean ====
section
/-! DEFINITION. The step of the machine, and a word placed where it fetches. -/

namespace Sys2Proof.Machine

/-- One step (R7, R72). -/
def step (s : State) : Host.Outcome State Fault Refusal := transition s

/-- `s` with the instruction whose bits are `w`, as spec/opcode_table.json numbers them, placed where `step` fetches. -/
def State.withFetchWord (s : State) (nbits w : Nat) : State := placeWord (tableWord nbits w) s

end Sys2Proof.Machine
end

