-- ==== Sys2Proof/Safety.lean ====
section
/-! DEFINITION. The terms the statements use: what a transition left unchanged, how an operation ends, which piece of state
each instruction and operation owns (R37), and the invariant of the machine. -/

namespace Sys2Proof.Machine

/-! ### Frames -/

/-- The pieces of state, as the ownership table lists them (R37), with the parameters and the model's own fields. -/
inductive Piece where
  /-- V0 to VF. -/
  | regs
  /-- `I`. -/
  | index
  /-- `PC`. -/
  | pc
  /-- `STACK` and `SP`. -/
  | stack
  /-- `DT`. -/
  | delay
  /-- `ST`. -/
  | sound
  /-- `FB`. -/
  | display
  /-- `MEM`. -/
  | memory
  /-- `run_state` and `wait_reg`. -/
  | run
  /-- `fault_kind` and `fault_info`. -/
  | fault
  /-- `KEYS`. -/
  | keys
  /-- The parameters. -/
  | params
  /-- The operations to come. -/
  | schedule
  /-- What the Random Source answers next. -/
  | random
  deriving DecidableEq, Repr

/-- A piece reads the same in both states; memory byte by byte, for every address. -/
def Piece.unchanged : Piece → State → State → Prop
  | .regs, s, t => ∀ x, t.reg x = s.reg x
  | .index, s, t => t.i = s.i
  | .pc, s, t => t.pc = s.pc
  | .stack, s, t => t.stack = s.stack ∧ t.sp = s.sp
  | .delay, s, t => t.dt = s.dt
  | .sound, s, t => t.st = s.st
  | .display, s, t => t.fb = s.fb
  | .memory, s, t => ∀ a, t.byteAt a = s.byteAt a
  | .run, s, t => t.runState = s.runState ∧ t.waitReg = s.waitReg
  | .fault, s, t => t.faultKind = s.faultKind ∧ t.faultInfo = s.faultInfo
  | .keys, s, t => ∀ k, t.key k = s.key k
  | .params, s, t => t.config = s.config
  | .schedule, s, t => t.schedule = s.schedule
  | .random, s, t => t.injected = s.injected ∧ t.drawCount = s.drawCount

/-- From `s` to `t` every piece of state outside `ps` is unchanged. -/
def OnlyWrites (ps : List Piece) (s t : State) : Prop := ∀ p, p ∉ ps → p.unchanged s t

/-- Every general register outside `xs` is unchanged. -/
def OtherRegs (xs : List Reg) (s t : State) : Prop := ∀ y, y ∉ xs → t.reg y = s.reg y

/-- Every byte of memory outside the `n` bytes from `a` up is unchanged. -/
def OtherBytes (a n : Nat) (s t : State) : Prop := ∀ k, ¬ (a ≤ k ∧ k < a + n) → t.byteAt k = s.byteAt k

/-! ### How an operation ends -/

/-- The operation answers a next state, and that state has the property. -/
def Completes (r : Result) (p : State → Prop) : Prop := ∃ t, r = .next t ∧ p t

/-- The operation started in `s` takes the fault `kind` with `fault_info = info`, and changes nothing else (R141, R142). -/
def Raises (s : State) (r : Result) (kind : Fault) (info : Nat) : Prop :=
  Completes r fun t =>
    t.runState = .faulted ∧ t.faultKind = some kind ∧ t.faultInfo.toNat = info ∧ t.waitReg = s.waitReg ∧
    OnlyWrites [.run, .fault] s t

/-- Instructions executed one after another. -/
def execAll : List Instr → State → Result
  | [], s => .next s
  | i :: is, s =>
    match exec i s with
    | .next t => execAll is t
    | .fault e => .fault e
    | .refused e => .refused e

/-- Operations performed one after another (R7). -/
def performAll : List Operation → State → Result
  | [], s => .next s
  | op :: ops, s =>
    match perform op s with
    | .next t => performAll ops t
    | .fault e => .fault e
    | .refused e => .refused e

/-! ### Ownership (R37) and the faults of an instruction (R143) -/

/-- The pieces of state an instruction may write (R37). -/
def instrWrites : Instr → List Piece
  | .cls => [.display, .pc]
  | .ret => [.stack, .pc, .run, .fault]
  | .jp _ => [.pc]
  | .call _ => [.stack, .pc, .run, .fault]
  | .sei _ _ => [.pc]
  | .snei _ _ => [.pc]
  | .ser _ _ => [.pc]
  | .ldi _ _ => [.regs, .pc]
  | .addi _ _ => [.regs, .pc]
  | .mov _ _ => [.regs, .pc]
  | .or _ _ => [.regs, .pc]
  | .and _ _ => [.regs, .pc]
  | .xor _ _ => [.regs, .pc]
  | .add _ _ => [.regs, .pc]
  | .sub _ _ => [.regs, .pc]
  | .shr _ _ => [.regs, .pc]
  | .subn _ _ => [.regs, .pc]
  | .shl _ _ => [.regs, .pc]
  | .sner _ _ => [.pc]
  | .lda _ => [.index, .pc]
  | .jpv0 _ => [.pc]
  | .rnd _ _ => [.regs, .pc, .random]
  | .drw _ _ _ => [.regs, .display, .pc, .run, .fault]
  | .skp _ => [.pc]
  | .sknp _ => [.pc]
  | .lddt _ => [.regs, .pc]
  | .wkey _ => [.run]
  | .stdt _ => [.delay, .pc]
  | .stst _ => [.sound, .pc]
  | .adda _ => [.index, .pc]
  | .font _ => [.index, .pc]
  | .bcd _ => [.memory, .pc, .run, .fault]
  | .stm _ => [.memory, .pc, .run, .fault]
  | .ldm _ => [.regs, .pc, .run, .fault]

/-- The general registers an instruction may write: `V[X]`, `V[0..X]`, and VF as a flag (R37). -/
def instrRegs : Instr → List Reg
  | .cls => []
  | .ret => []
  | .jp _ => []
  | .call _ => []
  | .sei _ _ => []
  | .snei _ _ => []
  | .ser _ _ => []
  | .ldi x _ => [x]
  | .addi x _ => [x]
  | .mov x _ => [x]
  | .or x _ => [x]
  | .and x _ => [x]
  | .xor x _ => [x]
  | .add x _ => [x, vf]
  | .sub x _ => [x, vf]
  | .shr x _ => [x, vf]
  | .subn x _ => [x, vf]
  | .shl x _ => [x, vf]
  | .sner _ _ => []
  | .lda _ => []
  | .jpv0 _ => []
  | .rnd x _ => [x]
  | .drw _ _ _ => [vf]
  | .skp _ => []
  | .sknp _ => []
  | .lddt x => [x]
  | .wkey _ => []
  | .stdt _ => []
  | .stst _ => []
  | .adda _ => []
  | .font _ => []
  | .bcd _ => []
  | .stm _ => []
  | .ldm x => (List.finRange 16).filter fun j => decide (j ≤ x)

/-- The pieces of state an operation other than `Step` may write (R37). -/
def operationWrites : Operation → List Piece
  | .reset => [.regs, .index, .pc, .stack, .delay, .sound, .display, .memory, .run, .fault]
  | .load _ => [.memory, .run, .fault]
  | .step => []
  | .tick => [.delay, .sound]
  | .keyEvent _ _ => [.keys, .regs, .pc, .run]
  | .halt => [.run]

/-- The one fault kind an instruction can raise at execution (R143). -/
def instrFault : Instr → Option Fault
  | .cls => none
  | .ret => some .stackUnderflow
  | .jp _ => none
  | .call _ => some .stackOverflow
  | .sei _ _ => none
  | .snei _ _ => none
  | .ser _ _ => none
  | .ldi _ _ => none
  | .addi _ _ => none
  | .mov _ _ => none
  | .or _ _ => none
  | .and _ _ => none
  | .xor _ _ => none
  | .add _ _ => none
  | .sub _ _ => none
  | .shr _ _ => none
  | .subn _ _ => none
  | .shl _ _ => none
  | .sner _ _ => none
  | .lda _ => none
  | .jpv0 _ => none
  | .rnd _ _ => none
  | .drw _ _ _ => some .outOfBoundsMemoryAccess
  | .skp _ => none
  | .sknp _ => none
  | .lddt _ => none
  | .wkey _ => none
  | .stdt _ => none
  | .stst _ => none
  | .adda _ => none
  | .font _ => none
  | .bcd _ => some .outOfBoundsMemoryAccess
  | .stm _ => some .outOfBoundsMemoryAccess
  | .ldm _ => some .outOfBoundsMemoryAccess

/-! ### Sprites (R130) -/

/-- Whether a 1 bit of the sprite of `n` rows at `I`, drawn at (`V[x]`, `V[y]`), lands on pixel (`px`, `py`): row `r`,
column `c` is bit `7 - c` of the byte at `I + r` and lands on column `(V[x] + c) mod 64`, row `(V[y] + r) mod 32` (R130). -/
def spriteCovers (s : State) (x y : Reg) (n : Nat) (py : Fin 32) (px : Fin 64) : Bool :=
  (List.range n).any fun r => (List.range 8).any fun c =>
    py.val == ((s.reg y).toNat + r) % 32 && px.val == ((s.reg x).toNat + c) % 64 &&
    (s.byteAt (s.dataAddress + r)).getLsbD (7 - c)

/-! ### The invariant -/

/-- The fault record agrees with `run_state`, and `fault_info` is what its kind records (R33, R140). -/
def State.faultRecordOk (s : State) : Prop :=
  (s.runState = .faulted ↔ s.faultKind ≠ none) ∧
  match s.faultKind with
  | some .outOfBoundsMemoryAccess => 4096 ≤ s.faultInfo.toNat
  | some .invalidOpcode => decode s.faultInfo = .invalid
  | some .romTooLarge => s.faultInfo = 0
  | some .stackOverflow => s.faultInfo = 0
  | some .stackUnderflow => s.faultInfo = 0
  | none => s.faultInfo = 0

/-- What holds of every state a run reaches. -/
structure State.Invariant (s : State) : Prop where
  /-- Memory keeps its canonical form (log entry 4). -/
  memoryCanonical : Memory.wf s.config s.mem = true
  /-- "the largest value any rule can write is 0x10FE" (R23). -/
  pcBounded : s.pc.toNat ≤ 0x10FE
  /-- A stacked return address "is at most 0x1000" (R81). -/
  stackBounded : ∀ j : Fin 16, (s.stack[j.val]).toNat ≤ 0x1000
  /-- In WAIT_KEY, PC names the suspended FX0A and `wait_reg` is its X field (R23, R32). -/
  waitNamesWkey : s.runState = .waitKey → ∃ op, s.fetch = .ok op ∧ decode op = .valid (.wkey s.waitReg)
  /-- The fault record is consistent (R33). -/
  faultRecord : s.faultRecordOk
  /-- In IDLE all core state is at its reset value (R149: IDLE is "reset done, no image loaded"). -/
  idleIsReset : s.runState = .idle → s = State.initial s.config s.keys s.schedule s.injected s.drawCount

end Sys2Proof.Machine
end

