-- ==== Sys2Proof/Certificates/Slice0/Obligations.lean ====
section
/-! DEFINITION. The statements for the provers. A docstring cites the rule a statement formalises. Where it rests on a
decision of the spec (D<n> of spec/92_eei_decisions.md) or on an entry of this model's log, it says so. -/

open Sys2Proof Sys2Proof.Machine

/-! ### Decoding and encoding -/

/-- The words R75 reads as examples decode as it says (R75 marks them as derived from R61 and R64). -/
def Obligations.SpecWordsDecode : Prop :=
  decode 0x8AB4 = .valid (.add 0xA 0xB) ∧ decode 0xD5C3 = .valid (.drw 0x5 0xC 3) ∧
  decode 0x3A10 = .valid (.sei 0xA 0x10) ∧ decode 0xF21E = .valid (.adda 2) ∧ decode 0x00E0 = .valid .cls ∧
  decode 0x00E1 = .invalid ∧ decode 0x5121 = .invalid ∧ decode 0x812F = .invalid ∧ decode 0xE19F = .invalid ∧
  decode 0xF200 = .invalid ∧ decode 0x0000 = .invalid ∧ decode 0xFFFF = .invalid

/-- Every instruction, with every operand at every value its field admits, is read back from its word (R61, R65). -/
def Obligations.EncodeThenDecode : Prop := ∀ i : Instr, decode (encode i) = .valid i

/-- A word that decodes to an instruction is that instruction's word: no bit of it is dropped (R61, R65). -/
def Obligations.DecodeThenEncode : Prop := ∀ (op : Word) (i : Instr), decode op = .valid i → encode i = op

/-- The decoder reads exactly the opcode map: a word that a row covers decodes to an instruction of that row's mnemonic, no
two rows cover one word, and a word no row covers is invalid (R65, R66). -/
def Obligations.DecoderMatchesOpcodeTable : Prop :=
  (∀ op, ∀ r ∈ opcodeTable, r.covers op = true → ∃ i, decode op = .valid i ∧ i.mnemonic = r.mnemonic) ∧
  (∀ op, ∀ r ∈ opcodeTable, ∀ q ∈ opcodeTable, r.covers op = true → q.covers op = true → r = q) ∧
  (∀ op, decode op = .invalid ↔ wordWellFormed op = false)

/-- The illegal words are exactly those R66 lists (that 0NNN is illegal is decision D9). -/
def Obligations.IllegalWordsAreTheListed : Prop :=
  ∀ op : Word, decode op = .invalid ↔
    (fieldF op = 0x0 ∧ op ≠ 0x00E0 ∧ op ≠ 0x00EE) ∨
    (fieldF op = 0x5 ∧ fieldN op ≠ 0) ∨
    (fieldF op = 0x8 ∧ fieldN op ∈ [0x8#4, 0x9#4, 0xA#4, 0xB#4, 0xC#4, 0xD#4, 0xF#4]) ∨
    (fieldF op = 0x9 ∧ fieldN op ≠ 0) ∨
    (fieldF op = 0xE ∧ fieldNN op ∉ [0x9E#8, 0xA1#8]) ∨
    (fieldF op = 0xF ∧ fieldNN op ∉ [0x07#8, 0x0A#8, 0x15#8, 0x18#8, 0x1E#8, 0x29#8, 0x33#8, 0x55#8, 0x65#8])

/-! ### The step -/

/-- A step in RUN, with no other operation scheduled, executes the instruction the two bytes at PC decode to, the high byte
at PC, whatever the parity of PC, and adds nothing around `exec` (R44, R72; odd PC: D10). -/
def Obligations.StepRunsDecodedInstruction : Prop :=
  ∀ (s : State) (i : Instr), s.schedule = [] → s.runState = .run → s.pc.toNat ≤ 4094 →
    decode (s.byteAt s.pc.toNat ++ s.byteAt (s.pc.toNat + 1)) = .valid i → step s = exec i s

/-- What stops a step before execution: a fetch outside memory, then a word that is no instruction (R44, R143, R161). -/
def Obligations.StepFaultsBeforeExecution : Prop :=
  ∀ s : State, s.schedule = [] → s.runState = .run →
    (4096 ≤ s.pc.toNat → Raises s (step s) .outOfBoundsMemoryAccess s.pc.toNat) ∧
    (s.pc.toNat = 4095 → Raises s (step s) .outOfBoundsMemoryAccess 4096) ∧
    (s.pc.toNat ≤ 4094 → decode (s.byteAt s.pc.toNat ++ s.byteAt (s.pc.toNat + 1)) = .invalid →
      Raises s (step s) .invalidOpcode (s.byteAt s.pc.toNat ++ s.byteAt (s.pc.toNat + 1)).toNat)

/-- Outside RUN, `Step()` changes nothing (R72; D33). -/
def Obligations.StepOutsideRunChangesNothing : Prop :=
  ∀ s : State, s.runState ≠ .run → perform .step s = .next s ∧ (s.schedule = [] → step s = .next s)

/-- The model's convention (log entry 2): a step performs the oldest scheduled operation, on the state without it; every
order of the operations of R6 is some schedule (R7). -/
def Obligations.StepPerformsScheduledOperation : Prop :=
  (∀ (s : State) (op : Operation) (rest : List Operation), s.schedule = op :: rest →
    step s = perform op { s with schedule := rest }) ∧
  (∀ s : State, s.schedule = [] → step s = perform .step s)

/-- No operation, no instruction and no step is refused or stops the model: each ends in a next state. -/
def Obligations.EveryStepHasANextState : Prop :=
  (∀ (i : Instr) (s : State), ∃ t, exec i s = .next t) ∧
  (∀ (op : Operation) (s : State), ∃ t, perform op s = .next t) ∧ (∀ s : State, ∃ t, step s = .next t)

/-! ### Memory -/

/-- The checked byte accesses: an address of 4096 or more raises and is never clamped, masked or wrapped; a write stores its
byte and nothing else (R42, R43). -/
def Obligations.ByteAccessIsChecked : Prop :=
  (∀ (s : State) (a : Nat),
    (a < 4096 → s.memRead a = .ok (s.byteAt a)) ∧ (4096 ≤ a → s.memRead a = .error (outOfBounds a))) ∧
  (∀ (s : State) (a : Nat) (b : Byte), Memory.wf s.config s.mem = true →
    (a < 4096 → ∃ t, s.memWrite a b = .ok t ∧ t.byteAt a = b ∧ OtherBytes a 1 s t ∧ OnlyWrites [.memory] s t) ∧
    (4096 ≤ a → s.memWrite a b = .error (outOfBounds a))) ∧
  (∀ a : Nat, (outOfBounds a).kind = .outOfBoundsMemoryAccess ∧ (a < 65536 → (outOfBounds a).info.toNat = a))

/-- `MemRead(addr, 2)`: two byte reads in ascending order, the high byte first, `addr + 1` not wrapped; the fetch is that
read at PC, faults with PC or 4096, and succeeds exactly when PC is at most 4094 (R44). -/
def Obligations.FetchIsBigEndian : Prop :=
  (∀ (s : State) (a : Nat),
    (a ≤ 4094 → s.memRead2 a = .ok (s.byteAt a ++ s.byteAt (a + 1))) ∧
    (a = 4095 → s.memRead2 a = .error (outOfBounds 4096)) ∧
    (4096 ≤ a → s.memRead2 a = .error (outOfBounds a))) ∧
  (∀ s : State, s.fetch = s.memRead2 s.pc.toNat) ∧
  (∀ s : State, (∃ op, s.fetch = .ok op) ↔ s.pc.toNat ≤ 4094)

/-- A store by FX33 or FX55 is seen by every later fetch, the very next one included (R54): the fetch in every state `u`
whose two bytes at its PC are as the store left them (the state `t` after the store itself, or a later one, whatever else has
changed since) reads the stored bytes where they were stored and the old bytes elsewhere. -/
def Obligations.StoreIsSeenByEveryFetch : Prop :=
  ∀ (s t : State) (i : Instr) (bytes : List Byte), Memory.wf s.config s.mem = true →
    ((∃ x, i = .stm x ∧ bytes = s.regsUpTo x) ∨ (∃ x, i = .bcd x ∧ bytes = bcdDigits (s.reg x))) →
    s.dataAddress + bytes.length ≤ 4096 → exec i s = .next t →
    ∀ u : State, u.pc.toNat ≤ 4094 → u.byteAt u.pc.toNat = t.byteAt u.pc.toNat →
      u.byteAt (u.pc.toNat + 1) = t.byteAt (u.pc.toNat + 1) →
      let seen := fun a : Nat =>
        if s.dataAddress ≤ a then bytes[a - s.dataAddress]?.getD (s.byteAt a) else s.byteAt a
      u.fetch = .ok (seen u.pc.toNat ++ seen (u.pc.toNat + 1))

/-! ### Faults -/

/-- "Raising a fault does exactly this: `run_state <- FAULTED; fault_kind <- code; fault_info <- info`. Nothing else
changes" (R141). -/
def Obligations.FaultEntryWritesRecordOnly : Prop :=
  ∀ (s : State) (e : Trap), (s.raise e).runState = .faulted ∧ (s.raise e).faultKind = some e.kind ∧
    (s.raise e).faultInfo = e.info ∧ (s.raise e).waitReg = s.waitReg ∧ OnlyWrites [.run, .fault] s (s.raise e)

/-- Faults are precise: an operation that brings the core into FAULTED makes none of its other writes (R142; D14). -/
def Obligations.FaultsArePrecise : Prop :=
  ∀ (op : Operation) (s t : State), perform op s = .next t → s.runState ≠ .faulted → t.runState = .faulted →
    t.waitReg = s.waitReg ∧ OnlyWrites [.run, .fault] s t

/-- At execution an instruction raises only the one kind R143 gives it, and one with no kind raises none. -/
def Obligations.InstructionsRaiseOnlyTheirFault : Prop :=
  ∀ (i : Instr) (s t : State), exec i s = .next t →
    (t.faultKind = s.faultKind ∧ t.faultInfo = s.faultInfo) ∨
    (∃ k, instrFault i = some k ∧ t.faultKind = some k ∧ t.runState = .faulted)

/-- No return from a fault (R144): in FAULTED no operation but `Reset()` changes core state and none raises, only the key
levels follow `KeyEvent`; no instruction clears the fault record, and none observes it. -/
def Obligations.FaultedLeftOnlyByReset : Prop :=
  (∀ (op : Operation) (s t : State), s.runState = .faulted → perform op s = .next t →
    (op ≠ .reset → OnlyWrites [.keys] s t) ∧ ((∀ k p, op ≠ .keyEvent k p) → op ≠ .reset → t = s) ∧
    (op = .reset → t.runState = .idle)) ∧
  (∀ (i : Instr) (s t : State), exec i s = .next t → s.faultKind ≠ none → t.faultKind ≠ none) ∧
  (∀ (i : Instr) (s t : State) (kind : Option Fault) (info : Word),
    s.runState = .run → exec i s = .next t → t.runState ≠ .faulted →
    exec i { s with faultKind := kind, faultInfo := info } = .next { t with faultKind := kind, faultInfo := info })

/-! ### Control transfer and the stack -/

/-- JP (R82), with the fetch fault after a jump to 0xFFF. -/
def Obligations.JumpRule : Prop :=
  (∀ op, fieldF op = 0x1 → decode op = .valid (.jp (fieldNNN op))) ∧
  ∀ (s : State) (nnn : Addr), Completes (exec (.jp nnn) s) fun t =>
    t.pc.toNat = nnn.toNat ∧ OnlyWrites [.pc] s t ∧ (s.pc.toNat = nnn.toNat → t = s) ∧
    (nnn = 0xFFF → t.fetch = .error (outOfBounds 4096))

/-- CALL (R83): the address of the next instruction is pushed (D8), or `StackOverflow`. -/
def Obligations.CallRule : Prop :=
  (∀ op, fieldF op = 0x2 → decode op = .valid (.call (fieldNNN op))) ∧
  ∀ (s : State) (nnn : Addr),
    (∀ h : s.sp.val < 16, Completes (exec (.call nnn) s) fun t =>
      t.pc.toNat = nnn.toNat ∧ t.sp.val = s.sp.val + 1 ∧ t.stack[s.sp.val] = s.pc + 2 ∧
      (∀ j : Fin 16, j.val ≠ s.sp.val → t.stack[j.val] = s.stack[j.val]) ∧ OnlyWrites [.pc, .stack] s t) ∧
    (s.sp.val = 16 → Raises s (exec (.call nnn) s) .stackOverflow 0)

/-- RET (R81): PC becomes exactly the popped value (D8), or `StackUnderflow`. -/
def Obligations.ReturnRule : Prop :=
  (∀ op : Word, op = 0x00EE → decode op = .valid .ret) ∧
  ∀ s : State,
    (∀ h : 0 < s.sp.val, Completes (exec .ret s) fun t =>
      t.pc = s.stack[s.sp.val - 1] ∧ t.sp.val = s.sp.val - 1 ∧ t.stack = s.stack ∧ OnlyWrites [.pc, .stack] s t) ∧
    (s.sp.val = 0 → Raises s (exec .ret s) .stackUnderflow 0)

/-- SEI and SNEI (R84, R85): exact complements; the skipped word is not examined. -/
def Obligations.SkipImmediateRule : Prop :=
  (∀ op, fieldF op = 0x3 → decode op = .valid (.sei (fieldX op) (fieldNN op))) ∧
  (∀ op, fieldF op = 0x4 → decode op = .valid (.snei (fieldX op) (fieldNN op))) ∧
  ∀ (s : State) (x : Reg) (nn : Byte),
    (Completes (exec (.sei x nn) s) fun t =>
      t.pc = s.pc + (if s.reg x = nn then 4 else 2) ∧ OnlyWrites [.pc] s t) ∧
    (Completes (exec (.snei x nn) s) fun t =>
      t.pc = s.pc + (if s.reg x = nn then 2 else 4) ∧ OnlyWrites [.pc] s t)

/-- SER and SNER (R86, R87). -/
def Obligations.SkipRegisterRule : Prop :=
  (∀ op, fieldF op = 0x5 → fieldN op = 0x0 → decode op = .valid (.ser (fieldX op) (fieldY op))) ∧
  (∀ op, fieldF op = 0x9 → fieldN op = 0x0 → decode op = .valid (.sner (fieldX op) (fieldY op))) ∧
  (∀ op, fieldF op = 0x5 ∨ fieldF op = 0x9 → fieldN op ≠ 0x0 → decode op = .invalid) ∧
  ∀ (s : State) (x y : Reg),
    (Completes (exec (.ser x y) s) fun t =>
      t.pc = s.pc + (if s.reg x = s.reg y then 4 else 2) ∧ OnlyWrites [.pc] s t) ∧
    (Completes (exec (.sner x y) s) fun t =>
      t.pc = s.pc + (if s.reg x = s.reg y then 2 else 4) ∧ OnlyWrites [.pc] s t)

/-- JPV0 (R88): the sum is written as it is, and a sum of 4096 or more faults at the next fetch with that address (D11). -/
def Obligations.JumpOffsetRule : Prop :=
  (∀ op, fieldF op = 0xB → decode op = .valid (.jpv0 (fieldNNN op))) ∧
  ∀ (s : State) (nnn : Addr), Completes (exec (.jpv0 nnn) s) fun t =>
    t.pc.toNat = nnn.toNat + (s.reg 0).toNat ∧ t.pc.toNat ≤ 0x10FE ∧ OnlyWrites [.pc] s t ∧
    (4096 ≤ t.pc.toNat → t.fetch = .error (outOfBounds t.pc.toNat))

/-- A RET after a CALL, with the stack as the CALL left it, goes on after the CALL (R81, R83; D8). -/
def Obligations.ReturnFollowsCall : Prop :=
  ∀ (s t u : State) (nnn : Addr), s.sp.val < 16 → exec (.call nnn) s = .next t → u.stack = t.stack → u.sp = t.sp →
    Completes (exec .ret u) fun w => w.pc = s.pc + 2 ∧ w.sp = s.sp ∧
      ∀ j : Fin 16, j.val < s.sp.val → w.stack[j.val] = s.stack[j.val]

/-- At most 16 calls may be outstanding; the 17th faults, a RET with none outstanding faults (R178, R26). -/
def Obligations.SixteenCallsNest : Prop :=
  (∀ (s : State) (targets : List Addr), s.sp.val + targets.length ≤ 16 →
    Completes (execAll (targets.map Instr.call) s) fun t =>
      t.sp.val = s.sp.val + targets.length ∧ OnlyWrites [.pc, .stack] s t ∧
      ∀ j : Fin 16, j.val < s.sp.val → t.stack[j.val] = s.stack[j.val]) ∧
  (∀ (s : State) (targets : List Addr) (nnn : Addr), s.sp = 0 → targets.length = 16 →
    Completes (execAll (targets.map Instr.call) s) fun t => Raises t (exec (.call nnn) t) .stackOverflow 0) ∧
  (∀ s : State, s.sp = 0 → Raises s (exec .ret s) .stackUnderflow 0)

/-! ### Register loads, arithmetic, logic, shifts, random -/

/-- LDI and MOV (R91, R93). -/
def Obligations.LoadRegisterRule : Prop :=
  (∀ op, fieldF op = 0x6 → decode op = .valid (.ldi (fieldX op) (fieldNN op))) ∧
  (∀ op, fieldF op = 0x8 → fieldN op = 0x0 → decode op = .valid (.mov (fieldX op) (fieldY op))) ∧
  ∀ (s : State) (x y : Reg) (nn : Byte),
    (Completes (exec (.ldi x nn) s) fun t =>
      t.reg x = nn ∧ OtherRegs [x] s t ∧ t.pc = s.pc + 2 ∧ OnlyWrites [.regs, .pc] s t) ∧
    (Completes (exec (.mov x y) s) fun t =>
      t.reg x = s.reg y ∧ OtherRegs [x] s t ∧ t.pc = s.pc + 2 ∧ OnlyWrites [.regs, .pc] s t)

/-- ADDI (R92): wraps, and VF keeps its value unless it is the destination. -/
def Obligations.AddImmediateRule : Prop :=
  (∀ op, fieldF op = 0x7 → decode op = .valid (.addi (fieldX op) (fieldNN op))) ∧
  ∀ (s : State) (x : Reg) (nn : Byte), Completes (exec (.addi x nn) s) fun t =>
    (t.reg x).toNat = ((s.reg x).toNat + nn.toNat) % 256 ∧ OtherRegs [x] s t ∧ t.pc = s.pc + 2 ∧
    OnlyWrites [.regs, .pc] s t

/-- OR, AND, XOR (R94 to R96), bit by bit; that VF is not written as a flag is decision D18. -/
def Obligations.LogicRule : Prop :=
  (∀ op, fieldF op = 0x8 → fieldN op = 0x1 → decode op = .valid (.or (fieldX op) (fieldY op))) ∧
  (∀ op, fieldF op = 0x8 → fieldN op = 0x2 → decode op = .valid (.and (fieldX op) (fieldY op))) ∧
  (∀ op, fieldF op = 0x8 → fieldN op = 0x3 → decode op = .valid (.xor (fieldX op) (fieldY op))) ∧
  ∀ (s : State) (x y : Reg),
    (Completes (exec (.or x y) s) fun t =>
      (∀ b : Nat, (t.reg x).getLsbD b = ((s.reg x).getLsbD b || (s.reg y).getLsbD b)) ∧
      OtherRegs [x] s t ∧ t.pc = s.pc + 2 ∧ OnlyWrites [.regs, .pc] s t) ∧
    (Completes (exec (.and x y) s) fun t =>
      (∀ b : Nat, (t.reg x).getLsbD b = ((s.reg x).getLsbD b && (s.reg y).getLsbD b)) ∧
      OtherRegs [x] s t ∧ t.pc = s.pc + 2 ∧ OnlyWrites [.regs, .pc] s t) ∧
    (Completes (exec (.xor x y) s) fun t =>
      (∀ b : Nat, (t.reg x).getLsbD b = ((s.reg x).getLsbD b != (s.reg y).getLsbD b)) ∧
      OtherRegs [x] s t ∧ t.pc = s.pc + 2 ∧ OnlyWrites [.regs, .pc] s t)

/-- ADD (R97): the carry remains in VF when X = 0xF; a Y of 0xF adds the old VF. -/
def Obligations.AddRule : Prop :=
  (∀ op, fieldF op = 0x8 → fieldN op = 0x4 → decode op = .valid (.add (fieldX op) (fieldY op))) ∧
  ∀ (s : State) (x y : Reg), Completes (exec (.add x y) s) fun t =>
    t.reg vf = (if 255 < (s.reg x).toNat + (s.reg y).toNat then 1 else 0) ∧
    (x ≠ vf → (t.reg x).toNat = ((s.reg x).toNat + (s.reg y).toNat) % 256) ∧
    OtherRegs [x, vf] s t ∧ t.pc = s.pc + 2 ∧ OnlyWrites [.regs, .pc] s t

/-- SUB and SUBN (R98, R100): VF is 1 when no borrow occurred, and remains the flag when X = 0xF. -/
def Obligations.SubtractRule : Prop :=
  (∀ op, fieldF op = 0x8 → fieldN op = 0x5 → decode op = .valid (.sub (fieldX op) (fieldY op))) ∧
  (∀ op, fieldF op = 0x8 → fieldN op = 0x7 → decode op = .valid (.subn (fieldX op) (fieldY op))) ∧
  ∀ (s : State) (x y : Reg),
    (Completes (exec (.sub x y) s) fun t =>
      t.reg vf = (if (s.reg y).toNat ≤ (s.reg x).toNat then 1 else 0) ∧
      (x ≠ vf → (t.reg x).toNat = ((s.reg x).toNat + 256 - (s.reg y).toNat) % 256) ∧
      OtherRegs [x, vf] s t ∧ t.pc = s.pc + 2 ∧ OnlyWrites [.regs, .pc] s t) ∧
    (Completes (exec (.subn x y) s) fun t =>
      t.reg vf = (if (s.reg x).toNat ≤ (s.reg y).toNat then 1 else 0) ∧
      (x ≠ vf → (t.reg x).toNat = ((s.reg y).toNat + 256 - (s.reg x).toNat) % 256) ∧
      OtherRegs [x, vf] s t ∧ t.pc = s.pc + 2 ∧ OnlyWrites [.regs, .pc] s t)

/-- SHR (R99), in both shift modes (R103). -/
def Obligations.ShiftRightRule : Prop :=
  (∀ op, fieldF op = 0x8 → fieldN op = 0x6 → decode op = .valid (.shr (fieldX op) (fieldY op))) ∧
  ∀ (s : State) (x y : Reg),
    let source := if s.config.shiftQuirkMode = .shiftVY then s.reg y else s.reg x
    Completes (exec (.shr x y) s) fun t =>
      (t.reg vf).toNat = source.toNat % 2 ∧ (x ≠ vf → (t.reg x).toNat = source.toNat / 2) ∧
      OtherRegs [x, vf] s t ∧ t.pc = s.pc + 2 ∧ OnlyWrites [.regs, .pc] s t

/-- SHL (R101), in both shift modes (R103). -/
def Obligations.ShiftLeftRule : Prop :=
  (∀ op, fieldF op = 0x8 → fieldN op = 0xE → decode op = .valid (.shl (fieldX op) (fieldY op))) ∧
  ∀ (s : State) (x y : Reg),
    let source := if s.config.shiftQuirkMode = .shiftVY then s.reg y else s.reg x
    Completes (exec (.shl x y) s) fun t =>
      (t.reg vf).toNat = source.toNat / 128 ∧ (x ≠ vf → (t.reg x).toNat = 2 * source.toNat % 256) ∧
      OtherRegs [x, vf] s t ∧ t.pc = s.pc + 2 ∧ OnlyWrites [.regs, .pc] s t

/-- RND (R102): the drawn byte under the mask, exactly one draw, and no other instruction draws. Which byte is drawn is the
model's convention (log entry 1): the oldest injected byte, else the free value `Config.randomByte`, of which nothing is
known. -/
def Obligations.RandomRule : Prop :=
  (∀ op, fieldF op = 0xC → decode op = .valid (.rnd (fieldX op) (fieldNN op))) ∧
  (∀ (s : State) (x : Reg) (nn r : Byte) (rest : List Byte),
    ((s.injected = r :: rest) ∨ (s.injected = [] ∧ rest = [] ∧ r = Config.randomByte s.drawCount)) →
    Completes (exec (.rnd x nn) s) fun t =>
      t.reg x = r &&& nn ∧ t.injected = rest ∧ t.drawCount = s.drawCount + 1 ∧ OtherRegs [x] s t ∧
      t.pc = s.pc + 2 ∧ OnlyWrites [.regs, .pc, .random] s t) ∧
  (∀ (i : Instr) (s t : State), (∀ x nn, i ≠ .rnd x nn) → exec i s = .next t →
    t.injected = s.injected ∧ t.drawCount = s.drawCount)

/-- VF as a flag (R21): the six flag-writing instructions leave 0x00 or 0x01 in it unless they fault, and no other
instruction writes it but as one of its destination registers. -/
def Obligations.FlagRegisterRule : Prop :=
  (∀ (i : Instr) (s t : State) (x y : Reg) (n : Nibble),
    i ∈ [.add x y, .sub x y, .shr x y, .subn x y, .shl x y, .drw x y n] → exec i s = .next t →
    t.runState ≠ .faulted → t.reg vf = 0 ∨ t.reg vf = 1) ∧
  (∀ (i : Instr) (s t : State), exec i s = .next t → vf ∉ instrRegs i → t.reg vf = s.reg vf)

/-! ### Index register and memory -/

/-- LDA (R111). -/
def Obligations.LoadIndexRule : Prop :=
  (∀ op, fieldF op = 0xA → decode op = .valid (.lda (fieldNNN op))) ∧
  ∀ (s : State) (nnn : Addr), Completes (exec (.lda nnn) s) fun t =>
    t.i.toNat = nnn.toNat ∧ t.i.toNat ≤ 0x0FFF ∧ t.pc = s.pc + 2 ∧ OnlyWrites [.index, .pc] s t

/-- ADDA (R112): wraps at 16 bits (D12), never at 12, and writes no flag. -/
def Obligations.AddToIndexRule : Prop :=
  (∀ op, fieldF op = 0xF → fieldNN op = 0x1E → decode op = .valid (.adda (fieldX op))) ∧
  ∀ (s : State) (x : Reg), Completes (exec (.adda x) s) fun t =>
    t.i.toNat = (s.i.toNat + (s.reg x).toNat) % 65536 ∧ t.pc = s.pc + 2 ∧ OnlyWrites [.index, .pc] s t

/-- FONT (R113), for every `FONT_BASE`: the high nibble of `V[X]` is ignored, no memory is read. -/
def Obligations.FontGlyphRule : Prop :=
  (∀ op, fieldF op = 0xF → fieldNN op = 0x29 → decode op = .valid (.font (fieldX op))) ∧
  ∀ (s : State) (x : Reg), Completes (exec (.font x) s) fun t =>
    t.i.toNat = s.config.fontBase.val + 5 * ((s.reg x).toNat % 16) ∧ t.pc = s.pc + 2 ∧ OnlyWrites [.index, .pc] s t

/-- BCD (R114): hundreds, tens and ones at `I`, `I + 1`, `I + 2`, or the fault with nothing written (D14). -/
def Obligations.DecimalDigitsRule : Prop :=
  (∀ op, fieldF op = 0xF → fieldNN op = 0x33 → decode op = .valid (.bcd (fieldX op))) ∧
  ∀ (s : State) (x : Reg), s.dataAddress = s.i.toNat ∧
    (Memory.wf s.config s.mem = true → s.i.toNat ≤ 4093 → Completes (exec (.bcd x) s) fun t =>
      (t.byteAt s.dataAddress).toNat = (s.reg x).toNat / 100 ∧
      (t.byteAt (s.dataAddress + 1)).toNat = (s.reg x).toNat / 10 % 10 ∧
      (t.byteAt (s.dataAddress + 2)).toNat = (s.reg x).toNat % 10 ∧
      OtherBytes s.dataAddress 3 s t ∧ t.pc = s.pc + 2 ∧ OnlyWrites [.memory, .pc] s t) ∧
    (4093 < s.i.toNat → Raises s (exec (.bcd x) s) .outOfBoundsMemoryAccess (max s.i.toNat 4096))

/-- STM (R115): `V[j]` at `I + j` for `j` from 0 to `X`, `I` unchanged (D13), or the fault with nothing written. -/
def Obligations.StoreRegistersRule : Prop :=
  (∀ op, fieldF op = 0xF → fieldNN op = 0x55 → decode op = .valid (.stm (fieldX op))) ∧
  ∀ (s : State) (x : Reg), s.dataAddress = s.i.toNat ∧
    (Memory.wf s.config s.mem = true → s.i.toNat + x.val ≤ 4095 → Completes (exec (.stm x) s) fun t =>
      (∀ j : Reg, j ≤ x → t.byteAt (s.dataAddress + j.val) = s.reg j) ∧
      OtherBytes s.dataAddress (x.val + 1) s t ∧ t.pc = s.pc + 2 ∧ OnlyWrites [.memory, .pc] s t) ∧
    (4095 < s.i.toNat + x.val → Raises s (exec (.stm x) s) .outOfBoundsMemoryAccess (max s.i.toNat 4096))

/-- LDM (R116): `V[j]` from `I + j` for `j` from 0 to `X`, `I` unchanged (D13), or the fault with no register written. -/
def Obligations.LoadRegistersRule : Prop :=
  (∀ op, fieldF op = 0xF → fieldNN op = 0x65 → decode op = .valid (.ldm (fieldX op))) ∧
  ∀ (s : State) (x : Reg), s.dataAddress = s.i.toNat ∧
    (s.i.toNat + x.val ≤ 4095 → Completes (exec (.ldm x) s) fun t =>
      (∀ j : Reg, j ≤ x → t.reg j = s.byteAt (s.dataAddress + j.val)) ∧
      (∀ j : Reg, ¬ j ≤ x → t.reg j = s.reg j) ∧ t.pc = s.pc + 2 ∧ OnlyWrites [.regs, .pc] s t) ∧
    (4095 < s.i.toNat + x.val → Raises s (exec (.ldm x) s) .outOfBoundsMemoryAccess (max s.i.toNat 4096))

/-- FX55 then FX65 with the same `X` and `I` bring `V[0]` to `V[X]` back, whatever the registers hold in between (R116, S8;
`I` untouched by FX55 is D13). -/
def Obligations.StoreThenLoadRoundTrip : Prop :=
  ∀ (s t u : State) (x : Reg), Memory.wf s.config s.mem = true → s.i.toNat + x.val ≤ 4095 → exec (.stm x) s = .next t →
    OnlyWrites [.regs, .pc] t u → Completes (exec (.ldm x) u) fun w => ∀ j : Reg, j ≤ x → w.reg j = s.reg j

/-! ### Timers and keys -/

/-- LDDT, STDT, STST (43_timer_input.md, FX07, FX15, FX18). -/
def Obligations.TimerInstructionsRule : Prop :=
  (∀ op, fieldF op = 0xF → fieldNN op = 0x07 → decode op = .valid (.lddt (fieldX op))) ∧
  (∀ op, fieldF op = 0xF → fieldNN op = 0x15 → decode op = .valid (.stdt (fieldX op))) ∧
  (∀ op, fieldF op = 0xF → fieldNN op = 0x18 → decode op = .valid (.stst (fieldX op))) ∧
  ∀ (s : State) (x : Reg),
    (Completes (exec (.lddt x) s) fun t =>
      t.reg x = s.dt ∧ OtherRegs [x] s t ∧ t.pc = s.pc + 2 ∧ OnlyWrites [.regs, .pc] s t) ∧
    (Completes (exec (.stdt x) s) fun t => t.dt = s.reg x ∧ t.pc = s.pc + 2 ∧ OnlyWrites [.delay, .pc] s t) ∧
    (Completes (exec (.stst x) s) fun t => t.st = s.reg x ∧ t.pc = s.pc + 2 ∧ OnlyWrites [.sound, .pc] s t)

/-- SKP and SKNP: exact complements that test the level of key `V[X] mod 16` (the low nibble is decision D20). -/
def Obligations.KeySkipRule : Prop :=
  (∀ op, fieldF op = 0xE → fieldNN op = 0x9E → decode op = .valid (.skp (fieldX op))) ∧
  (∀ op, fieldF op = 0xE → fieldNN op = 0xA1 → decode op = .valid (.sknp (fieldX op))) ∧
  ∀ (s : State) (x : Reg) (k : Key), k.val = (s.reg x).toNat % 16 →
    (Completes (exec (.skp x) s) fun t => t.pc = s.pc + (if s.key k = true then 4 else 2) ∧ OnlyWrites [.pc] s t) ∧
    (Completes (exec (.sknp x) s) fun t => t.pc = s.pc + (if s.key k = true then 2 else 4) ∧ OnlyWrites [.pc] s t)

/-- WKEY suspends with PC at itself and everything else kept; a new press while it waits then finishes it, and every other key
level is kept (43_timer_input.md FX0A; D21). That `wait_reg` is kept after the press is log entry 9. -/
def Obligations.KeyWaitRule : Prop :=
  (∀ op, fieldF op = 0xF → fieldNN op = 0x0A → decode op = .valid (.wkey (fieldX op))) ∧
  ∀ (s : State) (x : Reg), Completes (exec (.wkey x) s) fun t =>
    t.runState = .waitKey ∧ t.waitReg = x ∧ OnlyWrites [.run] s t ∧ perform .step t = .next t ∧
    ∀ k : Key, s.key k = false → Completes (perform (.keyEvent k true) t) fun u =>
      (u.reg x).toNat = k.val ∧ OtherRegs [x] s u ∧ u.pc = s.pc + 2 ∧ u.runState = .run ∧ u.waitReg = x ∧ u.key k = true ∧
      (∀ j : Key, j ≠ k → u.key j = s.key j) ∧ OnlyWrites [.regs, .pc, .run, .keys] s u

/-- `Tick` any number of times: each timer goes down by one per tick and stays at 0, nothing else changes; in HALTED and
FAULTED nothing changes (R150, S6; the gating is D22). -/
def Obligations.TicksCountDown : Prop :=
  ∀ (s : State) (n : Nat),
    (s.runState ∈ [.idle, .run, .waitKey] → Completes (performAll (List.replicate n .tick) s) fun t =>
      t.dt.toNat = s.dt.toNat - n ∧ t.st.toNat = s.st.toNat - n ∧ OnlyWrites [.delay, .sound] s t) ∧
    (s.runState ∈ [.halted, .faulted] → performAll (List.replicate n .tick) s = .next s)

/-- `KeyEvent` writes the level in every run state; a new press in WAIT_KEY also finishes the FX0A; nothing else does
(R153, R154; D21). -/
def Obligations.KeyEventRule : Prop :=
  ∀ (s : State) (k : Key) (pressed : Bool), Completes (perform (.keyEvent k pressed) s) fun t =>
    t.key k = pressed ∧ (∀ j : Key, j ≠ k → t.key j = s.key j) ∧
    if s.runState = .waitKey ∧ pressed = true ∧ s.key k = false then
      (t.reg s.waitReg).toNat = k.val ∧ OtherRegs [s.waitReg] s t ∧ t.pc = s.pc + 2 ∧ t.runState = .run ∧
      t.waitReg = s.waitReg ∧ OnlyWrites [.keys, .regs, .pc, .run] s t
    else OnlyWrites [.keys] s t

/-! ### Display -/

/-- CLS (R131). -/
def Obligations.ClearDisplayRule : Prop :=
  (∀ op : Word, op = 0x00E0 → decode op = .valid .cls) ∧
  ∀ s : State, Completes (exec .cls s) fun t =>
    (∀ y x, t.fb.pixel y x = false) ∧ t.pc = s.pc + 2 ∧ OnlyWrites [.display, .pc] s t

/-- DRW (44_display.md): exactly the pixels under a 1 bit of the sprite are inverted, VF is 1 exactly when one of them was
set, coordinates are the old registers; `N = 0` draws nothing (D36); a row outside memory faults with nothing drawn. The bit
order of a row and the direction of rows are D19. -/
def Obligations.DrawSpriteRule : Prop :=
  (∀ op, fieldF op = 0xD → decode op = .valid (.drw (fieldX op) (fieldY op) (fieldN op))) ∧
  ∀ (s : State) (x y : Reg) (n : Nibble), s.dataAddress = s.i.toNat ∧
    (n = 0 ∨ s.i.toNat + n.toNat ≤ 4096 → Completes (exec (.drw x y n) s) fun t =>
      (∀ py px, t.fb.pixel py px = (s.fb.pixel py px != spriteCovers s x y n.toNat py px)) ∧
      (t.reg vf = 1 ↔ ∃ py px, s.fb.pixel py px = true ∧ spriteCovers s x y n.toNat py px = true) ∧
      (t.reg vf = 0 ∨ t.reg vf = 1) ∧ OtherRegs [vf] s t ∧ t.pc = s.pc + 2 ∧
      OnlyWrites [.display, .regs, .pc] s t) ∧
    (n ≠ 0 → 4096 < s.i.toNat + n.toNat →
      Raises s (exec (.drw x y n) s) .outOfBoundsMemoryAccess (max s.i.toNat 4096))

/-- Drawing the same sprite twice at the same coordinates restores every pixel, and from a clear display the second draw of a
sprite with a 1 bit sets VF (S4; 44_display.md). X and Y are not VF, which the first draw overwrites. -/
def Obligations.DrawingTwiceRestores : Prop :=
  ∀ (s : State) (x y : Reg) (n : Nibble), x ≠ vf → y ≠ vf → (n = 0 ∨ s.i.toNat + n.toNat ≤ 4096) →
    Completes (exec (.drw x y n) s) fun t => Completes (exec (.drw x y n) t) fun u =>
      u.fb = s.fb ∧
      ((∀ py px, s.fb.pixel py px = false) → (∃ py px, spriteCovers s x y n.toNat py px = true) →
        t.reg vf = 0 ∧ u.reg vf = 1)

/-- The outputs (00_scope.md interface): bit `64*y + x` of the display port is `FB[y][x]` (R160; D30), and `fault_kind` is 0
for none and 1 to 5 in the order of R140, no other code (R33; D15). -/
def Obligations.OutputEncodings : Prop :=
  (∀ (s : State) (y : Fin 32) (x : Fin 64), s.displayPort[64 * y.val + x.val] = s.fb.pixel y x) ∧
  faultCode none = 0 ∧ faultCode (some .romTooLarge) = 1 ∧ faultCode (some .outOfBoundsMemoryAccess) = 2 ∧
  faultCode (some .stackOverflow) = 3 ∧ faultCode (some .stackUnderflow) = 4 ∧ faultCode (some .invalidOpcode) = 5 ∧
  ∀ k : Option Fault, (faultCode k).toNat ≤ 5

/-! ### Host operations -/

/-- `Load` (R56; D24): the image at 512 and RUN, or `RomTooLarge` with memory untouched; outside IDLE nothing (log entry 7).
That `wait_reg` keeps its value is log entry 9. -/
def Obligations.LoadRule : Prop :=
  ∀ (s : State) (bytes : List Byte),
    (s.runState = .idle → Memory.wf s.config s.mem = true → bytes.length ≤ 3584 →
      Completes (perform (.load bytes) s) fun t =>
        (∀ j : Nat, (h : j < bytes.length) → t.byteAt (512 + j) = bytes[j]) ∧ OtherBytes 512 bytes.length s t ∧
        t.runState = .run ∧ t.waitReg = s.waitReg ∧ OnlyWrites [.memory, .run] s t) ∧
    (s.runState = .idle → 3584 < bytes.length → Raises s (perform (.load bytes) s) .romTooLarge 0) ∧
    (s.runState ≠ .idle → perform (.load bytes) s = .next s)

/-- `Halt` (R156; D23): `run_state` alone, in IDLE, RUN and WAIT_KEY, so a suspended FX0A keeps its register and PC; only
`Reset` leaves HALTED. -/
def Obligations.HaltRule : Prop :=
  (∀ s : State, s.runState ∈ [.idle, .run, .waitKey] → Completes (perform .halt s) fun t =>
    t.runState = .halted ∧ t.waitReg = s.waitReg ∧ OnlyWrites [.run] s t) ∧
  (∀ s : State, s.runState ∈ [.halted, .faulted] → perform .halt s = .next s) ∧
  (∀ (op : Operation) (s t : State), s.runState = .halted → op ≠ .reset → perform op s = .next t → OnlyWrites [.keys] s t)

/-- `Reset`, from any state and for every choice of the parameters (R170, R20 to R33; D2 to D7, D23): every piece of core
state at its reset value, the key levels kept. That the parameters, the schedule and the Random Source are kept is log entry
13. -/
def Obligations.ResetRule : Prop :=
  ∀ s : State, Completes (perform .reset s) fun t =>
    (∀ x, t.reg x = 0) ∧ t.i = 0 ∧ t.pc = 0x0200 ∧ t.sp = 0 ∧ (∀ j : Fin 16, t.stack[j.val] = 0) ∧ t.dt = 0 ∧ t.st = 0 ∧
    (∀ y x, t.fb.pixel y x = false) ∧
    (∀ d : Fin 80, t.byteAt (s.config.fontBase.val + d.val) = s.config.fontData[d.val]) ∧
    (∀ a : Nat, a < s.config.fontBase.val ∨ s.config.fontBase.val + 80 ≤ a → t.byteAt a = 0) ∧
    t.runState = .idle ∧ t.waitReg = 0 ∧ t.faultKind = none ∧ t.faultInfo = 0 ∧
    (∀ p, p ∈ [Piece.keys, .params, .schedule, .random] → p.unchanged s t)

/-- The state after reset is what `Reset` leaves, with the defaults of the parameters (R4, R5, R31; D5, D17; log entry 3);
the bytes just outside the font read 0x00 (R30, D4; log entry 4). The key levels of that state are this model's choice (log entry 5) and nothing is said of them. -/
def Obligations.ResetStateHasDefaults : Prop :=
  State.reset.opReset = State.reset ∧ State.reset.config.shiftQuirkMode = .shiftVY ∧
  State.reset.config.fontBase.val = 0x050 ∧
  [0x050, 0x051, 0x052, 0x053, 0x054].map State.reset.byteAt = [0xF0, 0x90, 0x90, 0x90, 0xF0] ∧
  [0x09B, 0x09C, 0x09D, 0x09E, 0x09F].map State.reset.byteAt = [0xF0, 0x80, 0xF0, 0x80, 0x80] ∧
  State.reset.byteAt 0x04F = 0 ∧ State.reset.byteAt 0x0A0 = 0

/-- The transitions of `run_state` are those of the table of R149 and no others (D2, D33). -/
def Obligations.RunStateTransitions : Prop :=
  ∀ (op : Operation) (s t : State), perform op s = .next t → t.runState ≠ s.runState →
    (op = .reset ∧ t.runState = .idle) ∨
    (s.runState = .idle ∧ ∃ bytes, op = .load bytes ∧
      t.runState = if bytes.length ≤ 3584 then RunState.run else .faulted) ∨
    (s.runState ∈ [.idle, .run, .waitKey] ∧ op = .halt ∧ t.runState = .halted) ∨
    (s.runState = .run ∧ op = .step ∧ t.runState ∈ [.waitKey, .faulted]) ∨
    (s.runState = .waitKey ∧ (∃ k, op = .keyEvent k true ∧ s.key k = false) ∧ t.runState = .run)

/-! ### Whole-machine rules -/

/-- Write ownership (R37): an instruction and an operation write only the pieces of state, and an instruction only the
registers, that the table lists for them; a `Step` writes what the fetched instruction owns, or the fault record. That
only a 0 to 1 press resumes is decision D21; the random draws, the schedule and the parameters are no rows of R37: who writes
them is log entries 1, 2 and 13. -/
def Obligations.WriteOwnership : Prop :=
  (∀ (i : Instr) (s t : State), exec i s = .next t → OnlyWrites (instrWrites i) s t ∧ OtherRegs (instrRegs i) s t) ∧
  (∀ (op : Operation) (s t : State), op ≠ .step → perform op s = .next t → OnlyWrites (operationWrites op) s t) ∧
  (∀ (k : Key) (pressed : Bool) (s t : State), perform (.keyEvent k pressed) s = .next t →
    OtherRegs [s.waitReg] s t ∧
    (¬ (s.runState = .waitKey ∧ pressed = true ∧ s.key k = false) → OnlyWrites [.keys] s t)) ∧
  (∀ s t : State, perform .step s = .next t →
    OnlyWrites [.run, .fault] s t ∨
    ∃ i, s.fetch = .ok (encode i) ∧ OnlyWrites (instrWrites i) s t ∧ OtherRegs (instrRegs i) s t)

/-- Every step keeps the invariant of the machine (R23, R32, R33, R81, R149; log entry 4). -/
def Obligations.EveryStepKeepsInvariant : Prop :=
  ∀ s t : State, s.Invariant → step s = .next t → t.Invariant

/-- The invariant holds after reset, whatever the parameters, the key levels, the schedule and the random bytes. -/
def Obligations.ResetMeetsInvariant : Prop :=
  ∀ (c : Config) (keys : Vector Bool 16) (ops : List Operation) (rs : List Byte) (n : Nat),
    (State.initial c keys ops rs n).Invariant ∧ State.reset.Invariant

/-- A `Tick` falls wholly before or wholly after an instruction, and for every instruction that does not name a timer and
does not fault the two orders end in the same state (R7, R151). -/
def Obligations.TickCommutesWithInstruction : Prop :=
  ∀ (i : Instr) (s t : State), (∀ x, i ≠ .lddt x ∧ i ≠ .stdt x ∧ i ≠ .stst x) → s.runState = .run →
    exec i s = .next t → t.runState ≠ .faulted → exec i s.opTick = .next t.opTick

/-- No instruction reads the sound timer (R28): a change of ST changes ST alone in what every instruction does. -/
def Obligations.SoundTimerIsNeverRead : Prop :=
  ∀ (i : Instr) (s t : State) (b : Byte), exec i s = .next t →
    exec i (s.setSound b) = .next (if ∃ x, i = .stst x then t else t.setSound b)
end

