-- ==== Sys2Proof/Laws/Decode.lean ====
section
/-! SUPPORT. The fields of an encoded word, one lemma per field and format, and the decoder by family. -/

namespace Sys2Proof

/-! ### Fields of the formats (R61, R62) -/

@[simp] theorem fieldF_encodeA (f : Nibble) (nnn : Addr) : fieldF (encodeA f nnn) = f := by
  refine BitVec.eq_of_getLsbD_eq fun k hk => ?_
  simp only [fieldF, encodeA, BitVec.getLsbD_extractLsb', BitVec.getLsbD_append]
  interval_cases k <;> simp

@[simp] theorem fieldNNN_encodeA (f : Nibble) (nnn : Addr) : fieldNNN (encodeA f nnn) = nnn := by
  refine BitVec.eq_of_getLsbD_eq fun k hk => ?_
  simp only [fieldNNN, encodeA, BitVec.getLsbD_extractLsb', BitVec.getLsbD_append]
  interval_cases k <;> simp

@[simp] theorem fieldF_encodeXB (f : Nibble) (x : Reg) (nn : Byte) : fieldF (encodeXB f x nn) = f := by
  refine BitVec.eq_of_getLsbD_eq fun k hk => ?_
  simp only [fieldF, encodeXB, BitVec.getLsbD_extractLsb', BitVec.getLsbD_append]
  interval_cases k <;> simp

@[simp] theorem fieldX_encodeXB (f : Nibble) (x : Reg) (nn : Byte) : fieldX (encodeXB f x nn) = x := by
  have h : (encodeXB f x nn).extractLsb' 8 4 = regBits x := by
    refine BitVec.eq_of_getLsbD_eq fun k hk => ?_
    simp only [encodeXB, BitVec.getLsbD_extractLsb', BitVec.getLsbD_append]
    interval_cases k <;> simp
  rw [fieldX, h, regBits]

@[simp] theorem fieldNN_encodeXB (f : Nibble) (x : Reg) (nn : Byte) : fieldNN (encodeXB f x nn) = nn := by
  refine BitVec.eq_of_getLsbD_eq fun k hk => ?_
  simp only [fieldNN, encodeXB, BitVec.getLsbD_extractLsb', BitVec.getLsbD_append]
  interval_cases k <;> simp

@[simp] theorem fieldF_encodeXYN (f : Nibble) (x y : Reg) (n : Nibble) : fieldF (encodeXYN f x y n) = f := by
  refine BitVec.eq_of_getLsbD_eq fun k hk => ?_
  simp only [fieldF, encodeXYN, BitVec.getLsbD_extractLsb', BitVec.getLsbD_append]
  interval_cases k <;> simp

@[simp] theorem fieldX_encodeXYN (f : Nibble) (x y : Reg) (n : Nibble) : fieldX (encodeXYN f x y n) = x := by
  have h : (encodeXYN f x y n).extractLsb' 8 4 = regBits x := by
    refine BitVec.eq_of_getLsbD_eq fun k hk => ?_
    simp only [encodeXYN, BitVec.getLsbD_extractLsb', BitVec.getLsbD_append]
    interval_cases k <;> simp
  rw [fieldX, h, regBits]

@[simp] theorem fieldY_encodeXYN (f : Nibble) (x y : Reg) (n : Nibble) : fieldY (encodeXYN f x y n) = y := by
  have h : (encodeXYN f x y n).extractLsb' 4 4 = regBits y := by
    refine BitVec.eq_of_getLsbD_eq fun k hk => ?_
    simp only [encodeXYN, BitVec.getLsbD_extractLsb', BitVec.getLsbD_append]
    interval_cases k <;> simp
  rw [fieldY, h, regBits]

@[simp] theorem fieldN_encodeXYN (f : Nibble) (x y : Reg) (n : Nibble) : fieldN (encodeXYN f x y n) = n := by
  refine BitVec.eq_of_getLsbD_eq fun k hk => ?_
  simp only [fieldN, encodeXYN, BitVec.getLsbD_extractLsb', BitVec.getLsbD_append]
  interval_cases k <;> simp

/-! ### A word from its fields (R61) -/

/-- `op` is its family and its `NNN`. -/
theorem encodeA_fields (op : Word) : encodeA (fieldF op) (fieldNNN op) = op := by
  refine BitVec.eq_of_getLsbD_eq fun k hk => ?_
  simp only [fieldF, fieldNNN, encodeA, BitVec.getLsbD_extractLsb', BitVec.getLsbD_append]
  interval_cases k <;> simp

/-- `op` is its family, its `X` and its `NN`. -/
theorem encodeXB_fields (op : Word) : encodeXB (fieldF op) (fieldX op) (fieldNN op) = op := by
  have h : regBits (fieldX op) = op.extractLsb' 8 4 := rfl
  refine BitVec.eq_of_getLsbD_eq fun k hk => ?_
  simp only [fieldF, fieldNN, encodeXB, h, BitVec.getLsbD_extractLsb', BitVec.getLsbD_append]
  interval_cases k <;> simp

/-- `op` is its family, its `X`, its `Y` and its `N`. -/
theorem encodeXYN_fields (op : Word) : encodeXYN (fieldF op) (fieldX op) (fieldY op) (fieldN op) = op := by
  have hx : regBits (fieldX op) = op.extractLsb' 8 4 := rfl
  have hy : regBits (fieldY op) = op.extractLsb' 4 4 := rfl
  refine BitVec.eq_of_getLsbD_eq fun k hk => ?_
  simp only [fieldF, fieldN, encodeXYN, hx, hy, BitVec.getLsbD_extractLsb', BitVec.getLsbD_append]
  interval_cases k <;> simp

/-! ### The decoder by family (R64) -/

/-- A word of family 0 is CLS, RET or invalid (R64, R67). -/
theorem decode_family0 (op : Word) (h : fieldF op = 0x0#4) :
    decode op = if op = 0x00E0#16 then .valid .cls else if op = 0x00EE#16 then .valid .ret else .invalid := by
  simp [decode, decodeFamily, h]

/-- A word of another family is neither literal word, so it is decoded by family (R64). -/
theorem decode_of_family (op : Word) (h : fieldF op ≠ 0x0#4) : decode op = decodeFamily op := by
  have hc : op ≠ 0x00E0#16 := by
    rintro rfl
    exact h (by decide)
  have hr : op ≠ 0x00EE#16 := by
    rintro rfl
    exact h (by decide)
  rw [decode, if_neg hc, if_neg hr]

end Sys2Proof
end

