-- ==== Sys2Proof/Laws/State.lean ====
section
/-! SUPPORT. One lemma per field per update of State, and per accessor that the update does not touch; true by unfolding. -/

namespace Sys2Proof.Machine

variable (s : State)

/-! ### setReg -/

@[simp] theorem State.v_setReg (x : Reg) (b : Byte) : (s.setReg x b).v = s.v.set x.val b := rfl
@[simp] theorem State.i_setReg (x : Reg) (b : Byte) : (s.setReg x b).i = s.i := rfl
@[simp] theorem State.pc_setReg (x : Reg) (b : Byte) : (s.setReg x b).pc = s.pc := rfl
@[simp] theorem State.stack_setReg (x : Reg) (b : Byte) : (s.setReg x b).stack = s.stack := rfl
@[simp] theorem State.sp_setReg (x : Reg) (b : Byte) : (s.setReg x b).sp = s.sp := rfl
@[simp] theorem State.dt_setReg (x : Reg) (b : Byte) : (s.setReg x b).dt = s.dt := rfl
@[simp] theorem State.st_setReg (x : Reg) (b : Byte) : (s.setReg x b).st = s.st := rfl
@[simp] theorem State.fb_setReg (x : Reg) (b : Byte) : (s.setReg x b).fb = s.fb := rfl
@[simp] theorem State.mem_setReg (x : Reg) (b : Byte) : (s.setReg x b).mem = s.mem := rfl
@[simp] theorem State.runState_setReg (x : Reg) (b : Byte) : (s.setReg x b).runState = s.runState := rfl
@[simp] theorem State.waitReg_setReg (x : Reg) (b : Byte) : (s.setReg x b).waitReg = s.waitReg := rfl
@[simp] theorem State.faultKind_setReg (x : Reg) (b : Byte) : (s.setReg x b).faultKind = s.faultKind := rfl
@[simp] theorem State.faultInfo_setReg (x : Reg) (b : Byte) : (s.setReg x b).faultInfo = s.faultInfo := rfl
@[simp] theorem State.keys_setReg (x : Reg) (b : Byte) : (s.setReg x b).keys = s.keys := rfl
@[simp] theorem State.config_setReg (x : Reg) (b : Byte) : (s.setReg x b).config = s.config := rfl
@[simp] theorem State.schedule_setReg (x : Reg) (b : Byte) : (s.setReg x b).schedule = s.schedule := rfl
@[simp] theorem State.injected_setReg (x : Reg) (b : Byte) : (s.setReg x b).injected = s.injected := rfl
@[simp] theorem State.drawCount_setReg (x : Reg) (b : Byte) : (s.setReg x b).drawCount = s.drawCount := rfl
@[simp] theorem State.key_setReg (x : Reg) (b : Byte) (j : Key) : (s.setReg x b).key j = s.key j := rfl
@[simp] theorem State.byteAt_setReg (x : Reg) (b : Byte) (n : Nat) : (s.setReg x b).byteAt n = s.byteAt n := rfl

/-! ### setIndex -/

@[simp] theorem State.v_setIndex (w : Word) : (s.setIndex w).v = s.v := rfl
@[simp] theorem State.i_setIndex (w : Word) : (s.setIndex w).i = w := rfl
@[simp] theorem State.pc_setIndex (w : Word) : (s.setIndex w).pc = s.pc := rfl
@[simp] theorem State.stack_setIndex (w : Word) : (s.setIndex w).stack = s.stack := rfl
@[simp] theorem State.sp_setIndex (w : Word) : (s.setIndex w).sp = s.sp := rfl
@[simp] theorem State.dt_setIndex (w : Word) : (s.setIndex w).dt = s.dt := rfl
@[simp] theorem State.st_setIndex (w : Word) : (s.setIndex w).st = s.st := rfl
@[simp] theorem State.fb_setIndex (w : Word) : (s.setIndex w).fb = s.fb := rfl
@[simp] theorem State.mem_setIndex (w : Word) : (s.setIndex w).mem = s.mem := rfl
@[simp] theorem State.runState_setIndex (w : Word) : (s.setIndex w).runState = s.runState := rfl
@[simp] theorem State.waitReg_setIndex (w : Word) : (s.setIndex w).waitReg = s.waitReg := rfl
@[simp] theorem State.faultKind_setIndex (w : Word) : (s.setIndex w).faultKind = s.faultKind := rfl
@[simp] theorem State.faultInfo_setIndex (w : Word) : (s.setIndex w).faultInfo = s.faultInfo := rfl
@[simp] theorem State.keys_setIndex (w : Word) : (s.setIndex w).keys = s.keys := rfl
@[simp] theorem State.config_setIndex (w : Word) : (s.setIndex w).config = s.config := rfl
@[simp] theorem State.schedule_setIndex (w : Word) : (s.setIndex w).schedule = s.schedule := rfl
@[simp] theorem State.injected_setIndex (w : Word) : (s.setIndex w).injected = s.injected := rfl
@[simp] theorem State.drawCount_setIndex (w : Word) : (s.setIndex w).drawCount = s.drawCount := rfl
@[simp] theorem State.reg_setIndex (w : Word) (y : Reg) : (s.setIndex w).reg y = s.reg y := rfl
@[simp] theorem State.key_setIndex (w : Word) (j : Key) : (s.setIndex w).key j = s.key j := rfl
@[simp] theorem State.byteAt_setIndex (w : Word) (n : Nat) : (s.setIndex w).byteAt n = s.byteAt n := rfl

/-! ### setPc -/

@[simp] theorem State.v_setPc (w : Word) : (s.setPc w).v = s.v := rfl
@[simp] theorem State.i_setPc (w : Word) : (s.setPc w).i = s.i := rfl
@[simp] theorem State.pc_setPc (w : Word) : (s.setPc w).pc = w := rfl
@[simp] theorem State.stack_setPc (w : Word) : (s.setPc w).stack = s.stack := rfl
@[simp] theorem State.sp_setPc (w : Word) : (s.setPc w).sp = s.sp := rfl
@[simp] theorem State.dt_setPc (w : Word) : (s.setPc w).dt = s.dt := rfl
@[simp] theorem State.st_setPc (w : Word) : (s.setPc w).st = s.st := rfl
@[simp] theorem State.fb_setPc (w : Word) : (s.setPc w).fb = s.fb := rfl
@[simp] theorem State.mem_setPc (w : Word) : (s.setPc w).mem = s.mem := rfl
@[simp] theorem State.runState_setPc (w : Word) : (s.setPc w).runState = s.runState := rfl
@[simp] theorem State.waitReg_setPc (w : Word) : (s.setPc w).waitReg = s.waitReg := rfl
@[simp] theorem State.faultKind_setPc (w : Word) : (s.setPc w).faultKind = s.faultKind := rfl
@[simp] theorem State.faultInfo_setPc (w : Word) : (s.setPc w).faultInfo = s.faultInfo := rfl
@[simp] theorem State.keys_setPc (w : Word) : (s.setPc w).keys = s.keys := rfl
@[simp] theorem State.config_setPc (w : Word) : (s.setPc w).config = s.config := rfl
@[simp] theorem State.schedule_setPc (w : Word) : (s.setPc w).schedule = s.schedule := rfl
@[simp] theorem State.injected_setPc (w : Word) : (s.setPc w).injected = s.injected := rfl
@[simp] theorem State.drawCount_setPc (w : Word) : (s.setPc w).drawCount = s.drawCount := rfl
@[simp] theorem State.reg_setPc (w : Word) (y : Reg) : (s.setPc w).reg y = s.reg y := rfl
@[simp] theorem State.key_setPc (w : Word) (j : Key) : (s.setPc w).key j = s.key j := rfl
@[simp] theorem State.byteAt_setPc (w : Word) (n : Nat) : (s.setPc w).byteAt n = s.byteAt n := rfl

/-! ### advance -/

@[simp] theorem State.v_advance : s.advance.v = s.v := rfl
@[simp] theorem State.i_advance : s.advance.i = s.i := rfl
@[simp] theorem State.pc_advance : s.advance.pc = s.pc + 2 := rfl
@[simp] theorem State.stack_advance : s.advance.stack = s.stack := rfl
@[simp] theorem State.sp_advance : s.advance.sp = s.sp := rfl
@[simp] theorem State.dt_advance : s.advance.dt = s.dt := rfl
@[simp] theorem State.st_advance : s.advance.st = s.st := rfl
@[simp] theorem State.fb_advance : s.advance.fb = s.fb := rfl
@[simp] theorem State.mem_advance : s.advance.mem = s.mem := rfl
@[simp] theorem State.runState_advance : s.advance.runState = s.runState := rfl
@[simp] theorem State.waitReg_advance : s.advance.waitReg = s.waitReg := rfl
@[simp] theorem State.faultKind_advance : s.advance.faultKind = s.faultKind := rfl
@[simp] theorem State.faultInfo_advance : s.advance.faultInfo = s.faultInfo := rfl
@[simp] theorem State.keys_advance : s.advance.keys = s.keys := rfl
@[simp] theorem State.config_advance : s.advance.config = s.config := rfl
@[simp] theorem State.schedule_advance : s.advance.schedule = s.schedule := rfl
@[simp] theorem State.injected_advance : s.advance.injected = s.injected := rfl
@[simp] theorem State.drawCount_advance : s.advance.drawCount = s.drawCount := rfl
@[simp] theorem State.reg_advance (y : Reg) : s.advance.reg y = s.reg y := rfl
@[simp] theorem State.key_advance (j : Key) : s.advance.key j = s.key j := rfl
@[simp] theorem State.byteAt_advance (n : Nat) : s.advance.byteAt n = s.byteAt n := rfl

/-! ### setDelay -/

@[simp] theorem State.v_setDelay (b : Byte) : (s.setDelay b).v = s.v := rfl
@[simp] theorem State.i_setDelay (b : Byte) : (s.setDelay b).i = s.i := rfl
@[simp] theorem State.pc_setDelay (b : Byte) : (s.setDelay b).pc = s.pc := rfl
@[simp] theorem State.stack_setDelay (b : Byte) : (s.setDelay b).stack = s.stack := rfl
@[simp] theorem State.sp_setDelay (b : Byte) : (s.setDelay b).sp = s.sp := rfl
@[simp] theorem State.dt_setDelay (b : Byte) : (s.setDelay b).dt = b := rfl
@[simp] theorem State.st_setDelay (b : Byte) : (s.setDelay b).st = s.st := rfl
@[simp] theorem State.fb_setDelay (b : Byte) : (s.setDelay b).fb = s.fb := rfl
@[simp] theorem State.mem_setDelay (b : Byte) : (s.setDelay b).mem = s.mem := rfl
@[simp] theorem State.runState_setDelay (b : Byte) : (s.setDelay b).runState = s.runState := rfl
@[simp] theorem State.waitReg_setDelay (b : Byte) : (s.setDelay b).waitReg = s.waitReg := rfl
@[simp] theorem State.faultKind_setDelay (b : Byte) : (s.setDelay b).faultKind = s.faultKind := rfl
@[simp] theorem State.faultInfo_setDelay (b : Byte) : (s.setDelay b).faultInfo = s.faultInfo := rfl
@[simp] theorem State.keys_setDelay (b : Byte) : (s.setDelay b).keys = s.keys := rfl
@[simp] theorem State.config_setDelay (b : Byte) : (s.setDelay b).config = s.config := rfl
@[simp] theorem State.schedule_setDelay (b : Byte) : (s.setDelay b).schedule = s.schedule := rfl
@[simp] theorem State.injected_setDelay (b : Byte) : (s.setDelay b).injected = s.injected := rfl
@[simp] theorem State.drawCount_setDelay (b : Byte) : (s.setDelay b).drawCount = s.drawCount := rfl
@[simp] theorem State.reg_setDelay (b : Byte) (y : Reg) : (s.setDelay b).reg y = s.reg y := rfl
@[simp] theorem State.key_setDelay (b : Byte) (j : Key) : (s.setDelay b).key j = s.key j := rfl
@[simp] theorem State.byteAt_setDelay (b : Byte) (n : Nat) : (s.setDelay b).byteAt n = s.byteAt n := rfl

/-! ### setSound -/

@[simp] theorem State.v_setSound (b : Byte) : (s.setSound b).v = s.v := rfl
@[simp] theorem State.i_setSound (b : Byte) : (s.setSound b).i = s.i := rfl
@[simp] theorem State.pc_setSound (b : Byte) : (s.setSound b).pc = s.pc := rfl
@[simp] theorem State.stack_setSound (b : Byte) : (s.setSound b).stack = s.stack := rfl
@[simp] theorem State.sp_setSound (b : Byte) : (s.setSound b).sp = s.sp := rfl
@[simp] theorem State.dt_setSound (b : Byte) : (s.setSound b).dt = s.dt := rfl
@[simp] theorem State.st_setSound (b : Byte) : (s.setSound b).st = b := rfl
@[simp] theorem State.fb_setSound (b : Byte) : (s.setSound b).fb = s.fb := rfl
@[simp] theorem State.mem_setSound (b : Byte) : (s.setSound b).mem = s.mem := rfl
@[simp] theorem State.runState_setSound (b : Byte) : (s.setSound b).runState = s.runState := rfl
@[simp] theorem State.waitReg_setSound (b : Byte) : (s.setSound b).waitReg = s.waitReg := rfl
@[simp] theorem State.faultKind_setSound (b : Byte) : (s.setSound b).faultKind = s.faultKind := rfl
@[simp] theorem State.faultInfo_setSound (b : Byte) : (s.setSound b).faultInfo = s.faultInfo := rfl
@[simp] theorem State.keys_setSound (b : Byte) : (s.setSound b).keys = s.keys := rfl
@[simp] theorem State.config_setSound (b : Byte) : (s.setSound b).config = s.config := rfl
@[simp] theorem State.schedule_setSound (b : Byte) : (s.setSound b).schedule = s.schedule := rfl
@[simp] theorem State.injected_setSound (b : Byte) : (s.setSound b).injected = s.injected := rfl
@[simp] theorem State.drawCount_setSound (b : Byte) : (s.setSound b).drawCount = s.drawCount := rfl
@[simp] theorem State.reg_setSound (b : Byte) (y : Reg) : (s.setSound b).reg y = s.reg y := rfl
@[simp] theorem State.key_setSound (b : Byte) (j : Key) : (s.setSound b).key j = s.key j := rfl
@[simp] theorem State.byteAt_setSound (b : Byte) (n : Nat) : (s.setSound b).byteAt n = s.byteAt n := rfl

/-! ### setDisplay -/

@[simp] theorem State.v_setDisplay (fb : Framebuffer) : (s.setDisplay fb).v = s.v := rfl
@[simp] theorem State.i_setDisplay (fb : Framebuffer) : (s.setDisplay fb).i = s.i := rfl
@[simp] theorem State.pc_setDisplay (fb : Framebuffer) : (s.setDisplay fb).pc = s.pc := rfl
@[simp] theorem State.stack_setDisplay (fb : Framebuffer) : (s.setDisplay fb).stack = s.stack := rfl
@[simp] theorem State.sp_setDisplay (fb : Framebuffer) : (s.setDisplay fb).sp = s.sp := rfl
@[simp] theorem State.dt_setDisplay (fb : Framebuffer) : (s.setDisplay fb).dt = s.dt := rfl
@[simp] theorem State.st_setDisplay (fb : Framebuffer) : (s.setDisplay fb).st = s.st := rfl
@[simp] theorem State.fb_setDisplay (fb : Framebuffer) : (s.setDisplay fb).fb = fb := rfl
@[simp] theorem State.mem_setDisplay (fb : Framebuffer) : (s.setDisplay fb).mem = s.mem := rfl
@[simp] theorem State.runState_setDisplay (fb : Framebuffer) : (s.setDisplay fb).runState = s.runState := rfl
@[simp] theorem State.waitReg_setDisplay (fb : Framebuffer) : (s.setDisplay fb).waitReg = s.waitReg := rfl
@[simp] theorem State.faultKind_setDisplay (fb : Framebuffer) : (s.setDisplay fb).faultKind = s.faultKind := rfl
@[simp] theorem State.faultInfo_setDisplay (fb : Framebuffer) : (s.setDisplay fb).faultInfo = s.faultInfo := rfl
@[simp] theorem State.keys_setDisplay (fb : Framebuffer) : (s.setDisplay fb).keys = s.keys := rfl
@[simp] theorem State.config_setDisplay (fb : Framebuffer) : (s.setDisplay fb).config = s.config := rfl
@[simp] theorem State.schedule_setDisplay (fb : Framebuffer) : (s.setDisplay fb).schedule = s.schedule := rfl
@[simp] theorem State.injected_setDisplay (fb : Framebuffer) : (s.setDisplay fb).injected = s.injected := rfl
@[simp] theorem State.drawCount_setDisplay (fb : Framebuffer) : (s.setDisplay fb).drawCount = s.drawCount := rfl
@[simp] theorem State.reg_setDisplay (fb : Framebuffer) (y : Reg) : (s.setDisplay fb).reg y = s.reg y := rfl
@[simp] theorem State.key_setDisplay (fb : Framebuffer) (j : Key) : (s.setDisplay fb).key j = s.key j := rfl
@[simp] theorem State.byteAt_setDisplay (fb : Framebuffer) (n : Nat) : (s.setDisplay fb).byteAt n = s.byteAt n := rfl

/-! ### setRun -/

@[simp] theorem State.v_setRun (r : RunState) : (s.setRun r).v = s.v := rfl
@[simp] theorem State.i_setRun (r : RunState) : (s.setRun r).i = s.i := rfl
@[simp] theorem State.pc_setRun (r : RunState) : (s.setRun r).pc = s.pc := rfl
@[simp] theorem State.stack_setRun (r : RunState) : (s.setRun r).stack = s.stack := rfl
@[simp] theorem State.sp_setRun (r : RunState) : (s.setRun r).sp = s.sp := rfl
@[simp] theorem State.dt_setRun (r : RunState) : (s.setRun r).dt = s.dt := rfl
@[simp] theorem State.st_setRun (r : RunState) : (s.setRun r).st = s.st := rfl
@[simp] theorem State.fb_setRun (r : RunState) : (s.setRun r).fb = s.fb := rfl
@[simp] theorem State.mem_setRun (r : RunState) : (s.setRun r).mem = s.mem := rfl
@[simp] theorem State.runState_setRun (r : RunState) : (s.setRun r).runState = r := rfl
@[simp] theorem State.waitReg_setRun (r : RunState) : (s.setRun r).waitReg = s.waitReg := rfl
@[simp] theorem State.faultKind_setRun (r : RunState) : (s.setRun r).faultKind = s.faultKind := rfl
@[simp] theorem State.faultInfo_setRun (r : RunState) : (s.setRun r).faultInfo = s.faultInfo := rfl
@[simp] theorem State.keys_setRun (r : RunState) : (s.setRun r).keys = s.keys := rfl
@[simp] theorem State.config_setRun (r : RunState) : (s.setRun r).config = s.config := rfl
@[simp] theorem State.schedule_setRun (r : RunState) : (s.setRun r).schedule = s.schedule := rfl
@[simp] theorem State.injected_setRun (r : RunState) : (s.setRun r).injected = s.injected := rfl
@[simp] theorem State.drawCount_setRun (r : RunState) : (s.setRun r).drawCount = s.drawCount := rfl
@[simp] theorem State.reg_setRun (r : RunState) (y : Reg) : (s.setRun r).reg y = s.reg y := rfl
@[simp] theorem State.key_setRun (r : RunState) (j : Key) : (s.setRun r).key j = s.key j := rfl
@[simp] theorem State.byteAt_setRun (r : RunState) (n : Nat) : (s.setRun r).byteAt n = s.byteAt n := rfl

/-! ### setKey -/

@[simp] theorem State.v_setKey (k : Key) (b : Bool) : (s.setKey k b).v = s.v := rfl
@[simp] theorem State.i_setKey (k : Key) (b : Bool) : (s.setKey k b).i = s.i := rfl
@[simp] theorem State.pc_setKey (k : Key) (b : Bool) : (s.setKey k b).pc = s.pc := rfl
@[simp] theorem State.stack_setKey (k : Key) (b : Bool) : (s.setKey k b).stack = s.stack := rfl
@[simp] theorem State.sp_setKey (k : Key) (b : Bool) : (s.setKey k b).sp = s.sp := rfl
@[simp] theorem State.dt_setKey (k : Key) (b : Bool) : (s.setKey k b).dt = s.dt := rfl
@[simp] theorem State.st_setKey (k : Key) (b : Bool) : (s.setKey k b).st = s.st := rfl
@[simp] theorem State.fb_setKey (k : Key) (b : Bool) : (s.setKey k b).fb = s.fb := rfl
@[simp] theorem State.mem_setKey (k : Key) (b : Bool) : (s.setKey k b).mem = s.mem := rfl
@[simp] theorem State.runState_setKey (k : Key) (b : Bool) : (s.setKey k b).runState = s.runState := rfl
@[simp] theorem State.waitReg_setKey (k : Key) (b : Bool) : (s.setKey k b).waitReg = s.waitReg := rfl
@[simp] theorem State.faultKind_setKey (k : Key) (b : Bool) : (s.setKey k b).faultKind = s.faultKind := rfl
@[simp] theorem State.faultInfo_setKey (k : Key) (b : Bool) : (s.setKey k b).faultInfo = s.faultInfo := rfl
@[simp] theorem State.keys_setKey (k : Key) (b : Bool) : (s.setKey k b).keys = s.keys.set k.val b := rfl
@[simp] theorem State.config_setKey (k : Key) (b : Bool) : (s.setKey k b).config = s.config := rfl
@[simp] theorem State.schedule_setKey (k : Key) (b : Bool) : (s.setKey k b).schedule = s.schedule := rfl
@[simp] theorem State.injected_setKey (k : Key) (b : Bool) : (s.setKey k b).injected = s.injected := rfl
@[simp] theorem State.drawCount_setKey (k : Key) (b : Bool) : (s.setKey k b).drawCount = s.drawCount := rfl
@[simp] theorem State.reg_setKey (k : Key) (b : Bool) (y : Reg) : (s.setKey k b).reg y = s.reg y := rfl
@[simp] theorem State.byteAt_setKey (k : Key) (b : Bool) (n : Nat) : (s.setKey k b).byteAt n = s.byteAt n := rfl

/-! ### suspend -/

@[simp] theorem State.v_suspend (x : Reg) : (s.suspend x).v = s.v := rfl
@[simp] theorem State.i_suspend (x : Reg) : (s.suspend x).i = s.i := rfl
@[simp] theorem State.pc_suspend (x : Reg) : (s.suspend x).pc = s.pc := rfl
@[simp] theorem State.stack_suspend (x : Reg) : (s.suspend x).stack = s.stack := rfl
@[simp] theorem State.sp_suspend (x : Reg) : (s.suspend x).sp = s.sp := rfl
@[simp] theorem State.dt_suspend (x : Reg) : (s.suspend x).dt = s.dt := rfl
@[simp] theorem State.st_suspend (x : Reg) : (s.suspend x).st = s.st := rfl
@[simp] theorem State.fb_suspend (x : Reg) : (s.suspend x).fb = s.fb := rfl
@[simp] theorem State.mem_suspend (x : Reg) : (s.suspend x).mem = s.mem := rfl
@[simp] theorem State.runState_suspend (x : Reg) : (s.suspend x).runState = .waitKey := rfl
@[simp] theorem State.waitReg_suspend (x : Reg) : (s.suspend x).waitReg = x := rfl
@[simp] theorem State.faultKind_suspend (x : Reg) : (s.suspend x).faultKind = s.faultKind := rfl
@[simp] theorem State.faultInfo_suspend (x : Reg) : (s.suspend x).faultInfo = s.faultInfo := rfl
@[simp] theorem State.keys_suspend (x : Reg) : (s.suspend x).keys = s.keys := rfl
@[simp] theorem State.config_suspend (x : Reg) : (s.suspend x).config = s.config := rfl
@[simp] theorem State.schedule_suspend (x : Reg) : (s.suspend x).schedule = s.schedule := rfl
@[simp] theorem State.injected_suspend (x : Reg) : (s.suspend x).injected = s.injected := rfl
@[simp] theorem State.drawCount_suspend (x : Reg) : (s.suspend x).drawCount = s.drawCount := rfl
@[simp] theorem State.reg_suspend (x : Reg) (y : Reg) : (s.suspend x).reg y = s.reg y := rfl
@[simp] theorem State.key_suspend (x : Reg) (j : Key) : (s.suspend x).key j = s.key j := rfl
@[simp] theorem State.byteAt_suspend (x : Reg) (n : Nat) : (s.suspend x).byteAt n = s.byteAt n := rfl

/-! ### setSchedule -/

@[simp] theorem State.v_setSchedule (ops : List Operation) : (s.setSchedule ops).v = s.v := rfl
@[simp] theorem State.i_setSchedule (ops : List Operation) : (s.setSchedule ops).i = s.i := rfl
@[simp] theorem State.pc_setSchedule (ops : List Operation) : (s.setSchedule ops).pc = s.pc := rfl
@[simp] theorem State.stack_setSchedule (ops : List Operation) : (s.setSchedule ops).stack = s.stack := rfl
@[simp] theorem State.sp_setSchedule (ops : List Operation) : (s.setSchedule ops).sp = s.sp := rfl
@[simp] theorem State.dt_setSchedule (ops : List Operation) : (s.setSchedule ops).dt = s.dt := rfl
@[simp] theorem State.st_setSchedule (ops : List Operation) : (s.setSchedule ops).st = s.st := rfl
@[simp] theorem State.fb_setSchedule (ops : List Operation) : (s.setSchedule ops).fb = s.fb := rfl
@[simp] theorem State.mem_setSchedule (ops : List Operation) : (s.setSchedule ops).mem = s.mem := rfl
@[simp] theorem State.runState_setSchedule (ops : List Operation) : (s.setSchedule ops).runState = s.runState := rfl
@[simp] theorem State.waitReg_setSchedule (ops : List Operation) : (s.setSchedule ops).waitReg = s.waitReg := rfl
@[simp] theorem State.faultKind_setSchedule (ops : List Operation) : (s.setSchedule ops).faultKind = s.faultKind := rfl
@[simp] theorem State.faultInfo_setSchedule (ops : List Operation) : (s.setSchedule ops).faultInfo = s.faultInfo := rfl
@[simp] theorem State.keys_setSchedule (ops : List Operation) : (s.setSchedule ops).keys = s.keys := rfl
@[simp] theorem State.config_setSchedule (ops : List Operation) : (s.setSchedule ops).config = s.config := rfl
@[simp] theorem State.schedule_setSchedule (ops : List Operation) : (s.setSchedule ops).schedule = ops := rfl
@[simp] theorem State.injected_setSchedule (ops : List Operation) : (s.setSchedule ops).injected = s.injected := rfl
@[simp] theorem State.drawCount_setSchedule (ops : List Operation) : (s.setSchedule ops).drawCount = s.drawCount := rfl
@[simp] theorem State.reg_setSchedule (ops : List Operation) (y : Reg) : (s.setSchedule ops).reg y = s.reg y := rfl
@[simp] theorem State.key_setSchedule (ops : List Operation) (j : Key) : (s.setSchedule ops).key j = s.key j := rfl
@[simp] theorem State.byteAt_setSchedule (ops : List Operation) (n : Nat) : (s.setSchedule ops).byteAt n = s.byteAt n := rfl

/-! ### raise -/

@[simp] theorem State.v_raise (t : Trap) : (s.raise t).v = s.v := rfl
@[simp] theorem State.i_raise (t : Trap) : (s.raise t).i = s.i := rfl
@[simp] theorem State.pc_raise (t : Trap) : (s.raise t).pc = s.pc := rfl
@[simp] theorem State.stack_raise (t : Trap) : (s.raise t).stack = s.stack := rfl
@[simp] theorem State.sp_raise (t : Trap) : (s.raise t).sp = s.sp := rfl
@[simp] theorem State.dt_raise (t : Trap) : (s.raise t).dt = s.dt := rfl
@[simp] theorem State.st_raise (t : Trap) : (s.raise t).st = s.st := rfl
@[simp] theorem State.fb_raise (t : Trap) : (s.raise t).fb = s.fb := rfl
@[simp] theorem State.mem_raise (t : Trap) : (s.raise t).mem = s.mem := rfl
@[simp] theorem State.runState_raise (t : Trap) : (s.raise t).runState = .faulted := rfl
@[simp] theorem State.waitReg_raise (t : Trap) : (s.raise t).waitReg = s.waitReg := rfl
@[simp] theorem State.faultKind_raise (t : Trap) : (s.raise t).faultKind = some t.kind := rfl
@[simp] theorem State.faultInfo_raise (t : Trap) : (s.raise t).faultInfo = t.info := rfl
@[simp] theorem State.keys_raise (t : Trap) : (s.raise t).keys = s.keys := rfl
@[simp] theorem State.config_raise (t : Trap) : (s.raise t).config = s.config := rfl
@[simp] theorem State.schedule_raise (t : Trap) : (s.raise t).schedule = s.schedule := rfl
@[simp] theorem State.injected_raise (t : Trap) : (s.raise t).injected = s.injected := rfl
@[simp] theorem State.drawCount_raise (t : Trap) : (s.raise t).drawCount = s.drawCount := rfl
@[simp] theorem State.reg_raise (t : Trap) (y : Reg) : (s.raise t).reg y = s.reg y := rfl
@[simp] theorem State.key_raise (t : Trap) (j : Key) : (s.raise t).key j = s.key j := rfl
@[simp] theorem State.byteAt_raise (t : Trap) (n : Nat) : (s.raise t).byteAt n = s.byteAt n := rfl

/-! ### putByte -/

@[simp] theorem State.v_putByte (a : Nat) (b : Byte) : (s.putByte a b).v = s.v := rfl
@[simp] theorem State.i_putByte (a : Nat) (b : Byte) : (s.putByte a b).i = s.i := rfl
@[simp] theorem State.pc_putByte (a : Nat) (b : Byte) : (s.putByte a b).pc = s.pc := rfl
@[simp] theorem State.stack_putByte (a : Nat) (b : Byte) : (s.putByte a b).stack = s.stack := rfl
@[simp] theorem State.sp_putByte (a : Nat) (b : Byte) : (s.putByte a b).sp = s.sp := rfl
@[simp] theorem State.dt_putByte (a : Nat) (b : Byte) : (s.putByte a b).dt = s.dt := rfl
@[simp] theorem State.st_putByte (a : Nat) (b : Byte) : (s.putByte a b).st = s.st := rfl
@[simp] theorem State.fb_putByte (a : Nat) (b : Byte) : (s.putByte a b).fb = s.fb := rfl
@[simp] theorem State.mem_putByte (a : Nat) (b : Byte) : (s.putByte a b).mem = Memory.put (resetByte s.config a) a b s.mem := rfl
@[simp] theorem State.runState_putByte (a : Nat) (b : Byte) : (s.putByte a b).runState = s.runState := rfl
@[simp] theorem State.waitReg_putByte (a : Nat) (b : Byte) : (s.putByte a b).waitReg = s.waitReg := rfl
@[simp] theorem State.faultKind_putByte (a : Nat) (b : Byte) : (s.putByte a b).faultKind = s.faultKind := rfl
@[simp] theorem State.faultInfo_putByte (a : Nat) (b : Byte) : (s.putByte a b).faultInfo = s.faultInfo := rfl
@[simp] theorem State.keys_putByte (a : Nat) (b : Byte) : (s.putByte a b).keys = s.keys := rfl
@[simp] theorem State.config_putByte (a : Nat) (b : Byte) : (s.putByte a b).config = s.config := rfl
@[simp] theorem State.schedule_putByte (a : Nat) (b : Byte) : (s.putByte a b).schedule = s.schedule := rfl
@[simp] theorem State.injected_putByte (a : Nat) (b : Byte) : (s.putByte a b).injected = s.injected := rfl
@[simp] theorem State.drawCount_putByte (a : Nat) (b : Byte) : (s.putByte a b).drawCount = s.drawCount := rfl
@[simp] theorem State.reg_putByte (a : Nat) (b : Byte) (y : Reg) : (s.putByte a b).reg y = s.reg y := rfl
@[simp] theorem State.key_putByte (a : Nat) (b : Byte) (j : Key) : (s.putByte a b).key j = s.key j := rfl

/-! ### consumeRandom -/

@[simp] theorem State.v_consumeRandom : s.consumeRandom.v = s.v := rfl
@[simp] theorem State.i_consumeRandom : s.consumeRandom.i = s.i := rfl
@[simp] theorem State.pc_consumeRandom : s.consumeRandom.pc = s.pc := rfl
@[simp] theorem State.stack_consumeRandom : s.consumeRandom.stack = s.stack := rfl
@[simp] theorem State.sp_consumeRandom : s.consumeRandom.sp = s.sp := rfl
@[simp] theorem State.dt_consumeRandom : s.consumeRandom.dt = s.dt := rfl
@[simp] theorem State.st_consumeRandom : s.consumeRandom.st = s.st := rfl
@[simp] theorem State.fb_consumeRandom : s.consumeRandom.fb = s.fb := rfl
@[simp] theorem State.mem_consumeRandom : s.consumeRandom.mem = s.mem := rfl
@[simp] theorem State.runState_consumeRandom : s.consumeRandom.runState = s.runState := rfl
@[simp] theorem State.waitReg_consumeRandom : s.consumeRandom.waitReg = s.waitReg := rfl
@[simp] theorem State.faultKind_consumeRandom : s.consumeRandom.faultKind = s.faultKind := rfl
@[simp] theorem State.faultInfo_consumeRandom : s.consumeRandom.faultInfo = s.faultInfo := rfl
@[simp] theorem State.keys_consumeRandom : s.consumeRandom.keys = s.keys := rfl
@[simp] theorem State.config_consumeRandom : s.consumeRandom.config = s.config := rfl
@[simp] theorem State.schedule_consumeRandom : s.consumeRandom.schedule = s.schedule := rfl
@[simp] theorem State.injected_consumeRandom : s.consumeRandom.injected = s.injected.tail := rfl
@[simp] theorem State.drawCount_consumeRandom : s.consumeRandom.drawCount = s.drawCount + 1 := rfl
@[simp] theorem State.reg_consumeRandom (y : Reg) : s.consumeRandom.reg y = s.reg y := rfl
@[simp] theorem State.key_consumeRandom (j : Key) : s.consumeRandom.key j = s.key j := rfl
@[simp] theorem State.byteAt_consumeRandom (n : Nat) : s.consumeRandom.byteAt n = s.byteAt n := rfl

/-! ### Reads after writes -/

/-- The register just written reads as the value, every other as before (R10, R20). -/
@[simp] theorem State.reg_setReg (x : Reg) (b : Byte) (y : Reg) :
    (s.setReg x b).reg y = if y = x then b else s.reg y := by
  simp only [State.reg, State.setReg, Vector.getElem_set, Fin.ext_iff, eq_comm]

/-- The key level just written reads as written, every other as before (R153). -/
@[simp] theorem State.key_setKey (k : Key) (b : Bool) (j : Key) :
    (s.setKey k b).key j = if j = k then b else s.key j := by
  simp only [State.key, State.setKey, Vector.getElem_set, Fin.ext_iff, eq_comm]

/-- A skip writes the program counter and nothing else (R73). -/
theorem State.skipIf_eq (taken : Bool) :
    s.skipIf taken = s.setPc (s.pc + if taken then 4 else 2) := by
  cases taken <;> rfl

/-- A result and a flag go to the general registers and nowhere else (R90). -/
theorem State.setResultAndFlag_eq (x : Reg) (r f : Byte) :
    s.setResultAndFlag x r f = { s with v := (s.setResultAndFlag x r f).v } := rfl

/-- A result and its flag: VF holds the flag whatever `x` is, `x` the result unless it is VF (R90). -/
@[simp] theorem State.reg_setResultAndFlag (x : Reg) (r f : Byte) (y : Reg) :
    (s.setResultAndFlag x r f).reg y = if y = vf then f else if y = x then r else s.reg y := by
  simp only [State.setResultAndFlag, State.reg_setReg]

end Sys2Proof.Machine
end

