-- ==== Sys2Proof/Laws/Display.lean ====
section
/-! SUPPORT. The framebuffer: one pixel written, one pixel toggled, the cleared display, and everything a sprite does to the pixels. -/

namespace Sys2Proof.Machine

/-- The pixel just written reads as written, every other as before (R29). -/
@[simp] theorem Framebuffer.pixel_setPixel (fb : Framebuffer) (y y' : Fin 32) (x x' : Fin 64) (b : Bool) :
    (fb.setPixel y x b).pixel y' x' = if y' = y ∧ x' = x then b else fb.pixel y' x' := by
  unfold Framebuffer.pixel Framebuffer.setPixel
  simp only [Vector.getElem_set, Fin.ext_iff]
  by_cases hy : y.val = y'.val
  · by_cases hx : x.val = x'.val <;> simp [hy, hx, eq_comm]
  · simp [hy, Ne.symm hy]

/-- Every pixel of the cleared display is 0 (R131). -/
@[simp] theorem Framebuffer.pixel_clear (y : Fin 32) (x : Fin 64) : Framebuffer.clear.pixel y x = false := by
  simp [Framebuffer.pixel, Framebuffer.clear]

/-- Two framebuffers with the same pixels are the same. -/
theorem Framebuffer.ext_pixel (a b : Framebuffer) (h : ∀ y x, a.pixel y x = b.pixel y x) : a = b := by
  refine Vector.ext fun y hy => Vector.ext fun x hx => ?_
  exact h ⟨y, hy⟩ ⟨x, hx⟩

/-- A toggle inverts its pixel and leaves every other (R132). -/
@[simp] theorem Canvas.pixel_toggle (cv : Canvas) (y y' : Fin 32) (x x' : Fin 64) :
    (cv.toggle y x).fb.pixel y' x' = (cv.fb.pixel y' x' ^^ decide (y' = y ∧ x' = x)) := by
  simp only [Canvas.toggle, Framebuffer.pixel_setPixel]
  by_cases h : y' = y ∧ x' = x
  · obtain ⟨rfl, rfl⟩ := h
    simp
  · simp [h]

/-- A toggle collides exactly when its pixel was set (R132, R133). -/
@[simp] theorem Canvas.collision_toggle (cv : Canvas) (y : Fin 32) (x : Fin 64) :
    (cv.toggle y x).collision = (cv.collision || cv.fb.pixel y x) := rfl

/-! ### Sprites -/

/-- The pixels one sprite row toggles, in order (R130). -/
def rowPoints (x0 : Nat) (y : Fin 32) (b : Byte) : List (Fin 32 × Fin 64) :=
  ((List.range 8).filter fun c => b.getLsbD (7 - c)).map fun c => (y, wrapColumn x0 c)

/-- The pixels the sprite rows from row `r` on toggle, in order (R130). -/
def spritePoints (x0 y0 r : Nat) : List Byte → List (Fin 32 × Fin 64)
  | [] => []
  | b :: bs => rowPoints x0 (wrapRow y0 r) b ++ spritePoints x0 y0 (r + 1) bs

/-- Toggles pixels one after another. -/
def Canvas.toggleAll (cv : Canvas) (ps : List (Fin 32 × Fin 64)) : Canvas :=
  ps.foldl (fun cv p => cv.toggle p.1 p.2) cv

/-- Drawing one row toggles its points (R132). -/
theorem Canvas.drawRow_eq (x0 : Nat) (y : Fin 32) (b : Byte) (cv : Canvas) :
    cv.drawRow x0 y b = cv.toggleAll (rowPoints x0 y b) := by
  unfold Canvas.drawRow Canvas.toggleAll rowPoints
  rw [List.foldl_map, List.foldl_filter]
  rfl

/-- Drawing the rows toggles their points (R132). -/
theorem Canvas.drawRows_eq (x0 y0 r : Nat) (bs : List Byte) (cv : Canvas) :
    cv.drawRows x0 y0 r bs = cv.toggleAll (spritePoints x0 y0 r bs) := by
  induction bs generalizing r cv with
  | nil => rfl
  | cons b bs ih =>
    simp only [Canvas.drawRows, spritePoints, ih, Canvas.drawRow_eq]
    simp [Canvas.toggleAll, List.foldl_append]

/-- A pixel of a sprite: which row and column bit puts it there (R130). -/
theorem mem_spritePoints (x0 y0 r : Nat) (bs : List Byte) (y : Fin 32) (x : Fin 64) :
    (y, x) ∈ spritePoints x0 y0 r bs ↔
      ∃ j, ∃ h : j < bs.length, ∃ c, c < 8 ∧ y = wrapRow y0 (r + j) ∧ x = wrapColumn x0 c ∧ bs[j].getLsbD (7 - c) = true := by
  induction bs generalizing r with
  | nil => simp [spritePoints]
  | cons b bs ih =>
    simp only [spritePoints, List.mem_append, ih, rowPoints, List.mem_map, List.mem_filter, List.mem_range, Prod.mk.injEq]
    constructor
    · rintro (⟨c, ⟨hc, hb⟩, hy, hx⟩ | ⟨j, hj, c, hc, hy, hx, hb⟩)
      · exact ⟨0, by simp, c, hc, hy.symm, hx.symm, hb⟩
      · exact ⟨j + 1, by simpa using hj, c, hc, by rw [hy]; congr 1; omega, hx, by simpa using hb⟩
    · rintro ⟨j, hj, c, hc, hy, hx, hb⟩
      cases j with
      | zero => exact .inl ⟨c, ⟨hc, by simpa using hb⟩, hy.symm, hx.symm⟩
      | succ j => exact .inr ⟨j, by simpa using hj, c, hc, by rw [hy]; congr 1; omega, hx, by simpa using hb⟩

/-- A sprite of at most 32 rows toggles no pixel twice (R130, R133). -/
theorem nodup_spritePoints (x0 y0 r : Nat) (bs : List Byte) (h : r + bs.length ≤ 32) :
    (spritePoints x0 y0 r bs).Nodup := by
  induction bs generalizing r with
  | nil => exact List.nodup_nil
  | cons b bs ih =>
    have hlen : r + (bs.length + 1) ≤ 32 := by simpa using h
    refine List.Nodup.append ?_ (ih (r + 1) (by omega)) ?_
    · unfold rowPoints
      refine List.Nodup.map_on ?_ (List.Nodup.filter _ List.nodup_range)
      intro c hc d hd e
      simp only [List.mem_filter, List.mem_range] at hc hd
      have := congrArg Fin.val (Prod.mk.inj e).2
      simp only [wrapColumn, Fin.ofNat] at this
      omega
    · rintro ⟨y, x⟩ hp hq
      obtain ⟨j, hj, c, hc, hy, -⟩ := (mem_spritePoints x0 y0 (r + 1) bs y x).mp hq
      simp only [rowPoints, List.mem_map, Prod.mk.injEq] at hp
      obtain ⟨-, -, hp, -⟩ := hp
      have := congrArg Fin.val (hp.trans hy)
      simp only [wrapRow, Fin.ofNat] at this
      omega

/-- What every pixel is after distinct pixels are toggled (R132). -/
theorem Canvas.pixel_toggleAll (cv : Canvas) (ps : List (Fin 32 × Fin 64)) (h : ps.Nodup) (y : Fin 32) (x : Fin 64) :
    (cv.toggleAll ps).fb.pixel y x = (cv.fb.pixel y x ^^ decide ((y, x) ∈ ps)) := by
  induction ps generalizing cv with
  | nil => simp [Canvas.toggleAll]
  | cons p ps ih =>
    obtain ⟨hp, hps⟩ := List.nodup_cons.mp h
    have := ih (cv.toggle p.1 p.2) hps
    simp only [Canvas.toggleAll, List.foldl_cons] at this ⊢
    rw [this, Canvas.pixel_toggle]
    by_cases e : (y, x) = p
    · subst e
      simp [hp]
    · have : ¬ (y = p.1 ∧ x = p.2) := fun ⟨e1, e2⟩ => e (Prod.ext e1 e2)
      simp [e, this]

/-- Toggling distinct pixels collides exactly when one of them was set (R132, R133). -/
theorem Canvas.collision_toggleAll (cv : Canvas) (ps : List (Fin 32 × Fin 64)) (h : ps.Nodup) :
    (cv.toggleAll ps).collision = true ↔ cv.collision = true ∨ ∃ y x, (y, x) ∈ ps ∧ cv.fb.pixel y x = true := by
  induction ps generalizing cv with
  | nil => simp [Canvas.toggleAll]
  | cons p ps ih =>
    obtain ⟨hp, hps⟩ := List.nodup_cons.mp h
    have := ih (cv.toggle p.1 p.2) hps
    simp only [Canvas.toggleAll, List.foldl_cons] at this ⊢
    rw [this]
    simp only [Canvas.collision_toggle, Canvas.pixel_toggle, Bool.or_eq_true, List.mem_cons]
    constructor
    · rintro ((h | h) | ⟨y, x, hm, hx⟩)
      · exact .inl h
      · exact .inr ⟨p.1, p.2, .inl rfl, h⟩
      · have : ¬ (y = p.1 ∧ x = p.2) := fun ⟨e1, e2⟩ => hp (by rw [← (Prod.ext e1 e2 : (y, x) = p)]; exact hm)
        exact .inr ⟨y, x, .inr hm, by simpa [this] using hx⟩
    · rintro (h | ⟨y, x, hm | hm, hx⟩)
      · exact .inl (.inl h)
      · subst hm
        exact .inl (.inr hx)
      · have : ¬ (y = p.1 ∧ x = p.2) := fun ⟨e1, e2⟩ => hp (by rw [← (Prod.ext e1 e2 : (y, x) = p)]; exact hm)
        exact .inr ⟨y, x, hm, by simpa [this] using hx⟩

/-- Everything a sprite of at most 32 rows does to the pixels (R132). -/
theorem State.pixel_drawSprite (s : State) (x y : Reg) (rows : List Byte) (h : rows.length ≤ 32) (py : Fin 32) (px : Fin 64) :
    (s.drawSprite x y rows).fb.pixel py px =
      (s.fb.pixel py px ^^ decide ((py, px) ∈ spritePoints (s.reg x).toNat (s.reg y).toNat 0 rows)) := by
  unfold State.drawSprite
  rw [Canvas.drawRows_eq, Canvas.pixel_toggleAll _ _ (nodup_spritePoints _ _ _ _ (by omega))]

/-- The collision of a sprite of at most 32 rows: one of its pixels was set (R132, R133). -/
theorem State.collision_drawSprite (s : State) (x y : Reg) (rows : List Byte) (h : rows.length ≤ 32) :
    (s.drawSprite x y rows).collision = true ↔
      ∃ py px, (py, px) ∈ spritePoints (s.reg x).toNat (s.reg y).toNat 0 rows ∧ s.fb.pixel py px = true := by
  unfold State.drawSprite
  rw [Canvas.drawRows_eq, Canvas.collision_toggleAll _ _ (nodup_spritePoints _ _ _ _ (by omega))]
  simp

end Sys2Proof.Machine
end

