-- ==== Sys2Proof/Laws/Memory.lean ====
section
/-! SUPPORT. Memory: a read after a write, the canonical form kept by every operation, and what the multi-byte accesses
do, said once. -/

namespace Sys2Proof.Machine

/-! ### One cell -/

/-- Dropping cells above `a` in front does not change what `a` reads as. -/
theorem Memory.lookup_cell_append (d d' : Byte) (a n : Nat) (b : Byte) (m : Memory) (h : a ≠ n) :
    Memory.lookup d n (Memory.cell d' a b ++ m) = Memory.lookup d n m := by
  unfold Memory.cell
  split
  · simp
  · simp [Memory.lookup, h]

/-- In a memory whose cells all lie above `a`, `a` is unlisted. -/
theorem Memory.lookup_above (c : Config) (d : Byte) (a lo : Nat) (m : Memory) (h : Memory.wfFrom c lo m = true)
    (ha : a < lo) : Memory.lookup d a m = d := by
  induction m generalizing lo with
  | nil => rfl
  | cons kb rest ih =>
    obtain ⟨k, b⟩ := kb
    simp only [Memory.wfFrom, Bool.and_eq_true, decide_eq_true_eq, bne_iff_ne, ne_eq] at h
    have hk : k ≠ a := by omega
    simp only [Memory.lookup, hk, if_false]
    exact ih (k + 1) h.2 (by omega)

/-- Raising the lower bound of a canonical memory down is harmless. -/
theorem Memory.wfFrom_mono (c : Config) (lo lo' : Nat) (m : Memory) (h : Memory.wfFrom c lo m = true) (hl : lo' ≤ lo) :
    Memory.wfFrom c lo' m = true := by
  cases m with
  | nil => rfl
  | cons kb rest =>
    obtain ⟨k, b⟩ := kb
    simp only [Memory.wfFrom, Bool.and_eq_true, decide_eq_true_eq] at h ⊢
    exact ⟨⟨⟨by omega, h.1.1.2⟩, h.1.2⟩, h.2⟩

/-- Putting a cell before a canonical memory above it keeps the form. -/
theorem Memory.wfFrom_cell_append (c : Config) (lo a : Nat) (b : Byte) (m : Memory) (h : Memory.wfFrom c (a + 1) m = true)
    (hlo : lo ≤ a) (ha : a < 4096) : Memory.wfFrom c lo (Memory.cell (resetByte c a) a b ++ m) = true := by
  unfold Memory.cell
  split
  · exact Memory.wfFrom_mono c (a + 1) lo m h (by omega)
  · rename_i hb
    simp only [List.cons_append, List.nil_append, Memory.wfFrom, Bool.and_eq_true, decide_eq_true_eq, bne_iff_ne, ne_eq]
    exact ⟨⟨⟨hlo, ha⟩, hb⟩, h⟩

/-- A store keeps the canonical form (log entry 4). -/
theorem Memory.wfFrom_put (c : Config) (lo a : Nat) (b : Byte) (m : Memory) (h : Memory.wfFrom c lo m = true)
    (hlo : lo ≤ a) (ha : a < 4096) : Memory.wfFrom c lo (Memory.put (resetByte c a) a b m) = true := by
  induction m generalizing lo with
  | nil => simpa [Memory.put] using Memory.wfFrom_cell_append c lo a b [] rfl hlo ha
  | cons kw rest ih =>
    obtain ⟨k, w⟩ := kw
    have hm := h
    simp only [Memory.wfFrom, Bool.and_eq_true, decide_eq_true_eq] at h
    simp only [Memory.put]
    split
    · refine Memory.wfFrom_cell_append c lo a b _ ?_ hlo ha
      simp only [Memory.wfFrom, Bool.and_eq_true, decide_eq_true_eq]
      exact ⟨⟨⟨by omega, h.1.1.2⟩, h.1.2⟩, h.2⟩
    · split
      · rename_i hk
        subst hk
        exact Memory.wfFrom_cell_append c lo a b rest h.2 hlo ha
      · simp only [Memory.wfFrom, Bool.and_eq_true, decide_eq_true_eq]
        exact ⟨h.1, ih (k + 1) h.2 (by omega)⟩

/-- A read after a store: the byte stored, and every other address as before. The canonical form is not needed. -/
theorem Memory.lookup_put (c : Config) (lo a n : Nat) (b : Byte) (m : Memory) (h : Memory.wfFrom c lo m = true) :
    Memory.lookup (resetByte c n) n (Memory.put (resetByte c a) a b m) =
      if n = a then b else Memory.lookup (resetByte c n) n m := by
  induction m generalizing lo with
  | nil =>
    by_cases hn : n = a
    · subst hn
      by_cases hb : b = resetByte c n <;> simp [Memory.put, Memory.cell, Memory.lookup, hb]
    · by_cases hb : b = resetByte c a <;> simp [Memory.put, Memory.cell, Memory.lookup, hb, hn, Ne.symm hn]
  | cons kw rest ih =>
    obtain ⟨k, w⟩ := kw
    have hm := h
    simp only [Memory.wfFrom, Bool.and_eq_true, decide_eq_true_eq] at h
    simp only [Memory.put]
    split
    · rename_i hak
      by_cases hn : n = a
      · subst hn
        have hrest : Memory.lookup (resetByte c n) n ((k, w) :: rest) = resetByte c n := by
          refine Memory.lookup_above c _ n k _ ?_ hak
          simp only [Memory.wfFrom, Bool.and_eq_true, decide_eq_true_eq]
          exact ⟨⟨⟨Nat.le_refl _, h.1.1.2⟩, h.1.2⟩, h.2⟩
        simp only [if_true, Memory.cell]
        split
        · rename_i hb
          rw [List.nil_append, hrest, hb]
        · simp [Memory.lookup]
      · rw [Memory.lookup_cell_append _ _ _ _ _ _ (Ne.symm hn), if_neg hn]
    · split
      · rename_i hk
        subst hk
        by_cases hn : n = a
        · subst hn
          simp only [if_true, Memory.cell]
          split
          · rename_i hb
            rw [List.nil_append, Memory.lookup_above c _ n (n + 1) rest h.2 (by omega), hb]
          · simp [Memory.lookup]
        · rw [Memory.lookup_cell_append _ _ _ _ _ _ (Ne.symm hn), if_neg hn]
          simp [Memory.lookup, Ne.symm hn]
      · rename_i hk
        simp only [Memory.lookup]
        by_cases hkn : k = n
        · have : n ≠ a := by omega
          simp [hkn, this]
        · simp only [hkn, if_false]
          exact ih (k + 1) h.2

/-! ### The state's memory -/

/-- A read after a store (R42, R43, R51), in a state whose memory is canonical. -/
theorem State.byteAt_putByte (s : State) (hwf : Memory.wf s.config s.mem = true) (a n : Nat) (b : Byte) :
    (s.putByte a b).byteAt n = if n = a then b else s.byteAt n :=
  Memory.lookup_put s.config 0 a n b s.mem hwf

/-- A store to an existing address keeps the canonical form. -/
theorem State.wf_putByte (s : State) (hwf : Memory.wf s.config s.mem = true) (a : Nat) (b : Byte) (ha : a < 4096) :
    Memory.wf (s.putByte a b).config (s.putByte a b).mem = true :=
  Memory.wfFrom_put s.config 0 a b s.mem hwf (Nat.zero_le a) ha

/-- Consecutive stores write the memory and nothing else. -/
theorem State.putBytes_eq (s : State) (a : Nat) (bs : List Byte) :
    s.putBytes a bs = { s with mem := (s.putBytes a bs).mem } := by
  induction bs generalizing s a with
  | nil => rfl
  | cons b bs ih =>
    have h := ih (s.putByte a b) (a + 1)
    simp only [State.putBytes]
    rw [h]
    rfl

/-- Consecutive stores within memory keep the canonical form. -/
theorem State.wf_putBytes (s : State) (hwf : Memory.wf s.config s.mem = true) (a : Nat) (bs : List Byte)
    (ha : bs = [] ∨ a + bs.length ≤ 4096) :
    Memory.wf s.config (s.putBytes a bs).mem = true := by
  induction bs generalizing s a with
  | nil => simpa [State.putBytes] using hwf
  | cons b bs ih =>
    have hlen : a + (bs.length + 1) ≤ 4096 := by simpa using ha
    have := ih (s.putByte a b) (s.wf_putByte hwf a b (by omega)) (a + 1) (Or.inr (by omega))
    simpa [State.putBytes] using this

/-- What every address reads as after consecutive stores (R46, R56). -/
theorem State.byteAt_putBytes (s : State) (hwf : Memory.wf s.config s.mem = true) (a : Nat) (bs : List Byte)
    (ha : bs = [] ∨ a + bs.length ≤ 4096) (n : Nat) :
    (s.putBytes a bs).byteAt n = if a ≤ n then bs[n - a]?.getD (s.byteAt n) else s.byteAt n := by
  induction bs generalizing s a with
  | nil => simp [State.putBytes]
  | cons b bs ih =>
    have hlen : a + (bs.length + 1) ≤ 4096 := by simpa using ha
    have hput := s.byteAt_putByte hwf a n b
    have := ih (s.putByte a b) (s.wf_putByte hwf a b (by omega)) (a + 1) (Or.inr (by omega))
    simp only [State.putBytes, this, hput]
    by_cases h1 : a = n
    · subst h1
      simp
    · by_cases h2 : a + 1 ≤ n
      · have h3 : a ≤ n := by omega
        have h4 : n - a = (n - (a + 1)) + 1 := by omega
        have h5 : n ≠ a := by omega
        simp [h2, h3, h4, h5]
      · have h3 : ¬ a ≤ n := by omega
        have h5 : n ≠ a := by omega
        simp [h2, h3, h5]

/-! ### Checked accesses (R42 to R45) -/

/-- Everything a sequence of checked writes can do: all of it, or the fault with the lowest address that does not exist. -/
theorem State.writeBytes_eq (s : State) (a : Nat) (bs : List Byte) :
    s.writeBytes a bs =
      if bs = [] ∨ a + bs.length ≤ 4096 then .ok (s.putBytes a bs) else .error (outOfBounds (max a 4096)) := by
  induction bs generalizing s a with
  | nil => rfl
  | cons b bs ih =>
    by_cases ha : 4096 ≤ a
    · have h1 : ¬ a + (bs.length + 1) ≤ 4096 := by omega
      simp [State.writeBytes, State.memWrite, ha, h1]
    · simp only [State.writeBytes, State.memWrite, ha, if_false, ih, State.putBytes]
      have h2 : max (a + 1) 4096 = max a 4096 := by omega
      rw [h2]
      cases bs with
      | nil =>
        have : a + 1 ≤ 4096 := by omega
        simp [this]
      | cons c cs =>
        simp only [reduceCtorEq, false_or, List.length_cons]
        congr 1
        simp only [eq_iff_iff]
        omega

/-- Everything a sequence of checked reads can do: the bytes, or the fault with the lowest address that does not exist. -/
theorem State.readBytes_eq (s : State) (a n : Nat) :
    s.readBytes a n =
      if n = 0 ∨ a + n ≤ 4096 then .ok ((List.range n).map fun j => s.byteAt (a + j))
      else .error (outOfBounds (max a 4096)) := by
  induction n generalizing a with
  | zero => rfl
  | succ n ih =>
    by_cases ha : 4096 ≤ a
    · have h1 : ¬ a + (n + 1) ≤ 4096 := by omega
      simp [State.readBytes, State.memRead, ha, h1]
    · simp only [State.readBytes, State.memRead, ha, if_false, ih]
      have h2 : max (a + 1) 4096 = max a 4096 := by omega
      rw [h2]
      by_cases h3 : n = 0 ∨ a + 1 + n ≤ 4096
      · have h4 : n + 1 = 0 ∨ a + (n + 1) ≤ 4096 := by omega
        rw [if_pos h3, if_pos h4]
        simp only [List.range_succ_eq_map, List.map_cons, List.map_map, Nat.add_zero]
        congr 2
        refine List.map_congr_left fun j _ => ?_
        simp only [Function.comp, Nat.succ_eq_add_one]
        congr 1
        omega
      · have h4 : ¬ (n + 1 = 0 ∨ a + (n + 1) ≤ 4096) := by omega
        rw [if_neg h3, if_neg h4]

/-- Everything the fetch can do: the big-endian word when both bytes exist, else the fault R44 names. -/
theorem State.fetch_eq (s : State) :
    s.fetch =
      if s.pc.toNat ≤ 4094 then .ok (wordOfBytes (s.byteAt s.pc.toNat) (s.byteAt (s.pc.toNat + 1)))
      else .error (outOfBounds (max s.pc.toNat 4096)) := by
  unfold State.fetch State.memRead2 State.memRead
  by_cases h1 : 4096 ≤ s.pc.toNat
  · have h2 : ¬ s.pc.toNat ≤ 4094 := by omega
    simp [h1, h2]
  · by_cases h3 : 4096 ≤ s.pc.toNat + 1
    · have h2 : ¬ s.pc.toNat ≤ 4094 := by omega
      have h4 : max s.pc.toNat 4096 = s.pc.toNat + 1 := by omega
      simp [h1, h3, h2, h4]
    · have h2 : s.pc.toNat ≤ 4094 := by omega
      simp [h1, h3, h2]

end Sys2Proof.Machine
end

