-- ==== Sys2Proof/Laws/Ops.lean ====
section
/-! SUPPORT. One lemma per shared operation, saying once everything it can do. -/

namespace Sys2Proof.Machine

/-- An operation that succeeded ends in the state it computed. -/
@[simp] theorem State.settle_ok (s t : State) : s.settle (.ok t) = .next t := rfl

/-- An operation that raised ends in the fault, taken on the state before it (R142). -/
@[simp] theorem State.settle_error (s : State) (e : Trap) : s.settle (.error e) = .next (s.raise e) := rfl

/-- An operation that can raise always ends in a next state. -/
theorem State.settle_next (s : State) (r : Except Trap State) :
    ∃ t, s.settle r = .next t ∧ (r = .ok t ∨ ∃ e, r = .error e ∧ t = s.raise e) := by
  cases r with
  | ok t => exact ⟨t, rfl, .inl rfl⟩
  | error e => exact ⟨s.raise e, rfl, .inr ⟨e, rfl, rfl⟩⟩

/-- A push with room (R26). -/
theorem State.push_room (s : State) (w : Word) (h : s.sp.val < 16) :
    s.push w = .ok { s with stack := s.stack.set s.sp.val w, sp := ⟨s.sp.val + 1, by omega⟩ } := by
  simp [State.push, h]

/-- A push without room (R26, R163). -/
theorem State.push_full (s : State) (w : Word) (h : s.sp.val = 16) : s.push w = .error ⟨.stackOverflow, 0⟩ := by
  simp [State.push, h]

/-- A pop of a stack that holds an address (R26). -/
theorem State.pop_some (s : State) (h : 0 < s.sp.val) :
    s.pop = .ok (s.stack[s.sp.val - 1], { s with sp := ⟨s.sp.val - 1, by omega⟩ }) := by
  simp [State.pop, h]

/-- A pop of the empty stack (R26, R163). -/
theorem State.pop_empty (s : State) (h : s.sp.val = 0) : s.pop = .error ⟨.stackUnderflow, 0⟩ := by
  simp [State.pop, h]

/-- Consecutive register loads write the general registers and nothing else (R116). -/
theorem State.setRegsFrom_eq (s : State) (j : Nat) (bs : List Byte) :
    s.setRegsFrom j bs = { s with v := (s.setRegsFrom j bs).v } := by
  induction bs generalizing s j with
  | nil => rfl
  | cons b bs ih =>
    have h := ih (s.setReg (Fin.ofNat 16 j) b) (j + 1)
    simp only [State.setRegsFrom]
    rw [h]
    rfl

/-- What each register holds after consecutive register loads (R116). -/
theorem State.reg_setRegsFrom (s : State) (j : Nat) (bs : List Byte) (h : j + bs.length ≤ 16) (y : Reg) :
    (s.setRegsFrom j bs).reg y = if j ≤ y.val then bs[y.val - j]?.getD (s.reg y) else s.reg y := by
  induction bs generalizing s j with
  | nil => simp [State.setRegsFrom]
  | cons b bs ih =>
    have hlen : j + (bs.length + 1) ≤ 16 := by simpa using h
    have hj : (Fin.ofNat 16 j).val = j := by simp [Fin.ofNat]; omega
    simp only [State.setRegsFrom, ih _ _ (show j + 1 + bs.length ≤ 16 by omega), State.reg_setReg, Fin.ext_iff, hj]
    by_cases h1 : y.val = j
    · simp [h1]
    · by_cases h2 : j + 1 ≤ y.val
      · have h3 : j ≤ y.val := by omega
        have h4 : y.val - j = (y.val - (j + 1)) + 1 := by omega
        simp [h1, h2, h3, h4]
      · have h3 : ¬ j ≤ y.val := by omega
        simp [h1, h2, h3]

/-- The registers a store-multiple writes: `X + 1` of them, register `j` at offset `j` (R115). -/
theorem State.length_regsUpTo (s : State) (x : Reg) : (s.regsUpTo x).length = x.val + 1 := by
  simp [State.regsUpTo]

/-- Register `j` stands at offset `j` (R115). -/
theorem State.getElem_regsUpTo (s : State) (x : Reg) (j : Nat) (h : j < (s.regsUpTo x).length) :
    (s.regsUpTo x)[j] = s.reg (Fin.ofNat 16 j) := by
  have hj : j < 16 := by
    rw [State.length_regsUpTo] at h
    omega
  simp [State.regsUpTo, State.reg, Nat.mod_eq_of_lt hj]

/-- Reset leaves what the core does not own (R170, R34). -/
theorem State.opReset_eq (s : State) :
    s.opReset = State.initial s.config s.keys s.schedule s.injected s.drawCount := rfl

/-- A `Load` in IDLE of an image that is too long (R56, R164). -/
theorem State.opLoad_tooLarge (s : State) (bytes : List Byte) (hs : s.runState = .idle) (h : 3584 < bytes.length) :
    s.opLoad bytes = s.raise ⟨.romTooLarge, 0⟩ := by
  simp [State.opLoad, hs, h]

/-- A `Load` in IDLE of an image that fits (R56). -/
theorem State.opLoad_fits (s : State) (bytes : List Byte) (hs : s.runState = .idle) (h : bytes.length ≤ 3584) :
    s.opLoad bytes = (s.putBytes 512 bytes).setRun .run := by
  simp [State.opLoad, hs, Nat.not_lt.mpr h]

/-- A `Load` outside IDLE (R56, R149). -/
theorem State.opLoad_notIdle (s : State) (bytes : List Byte) (hs : s.runState ≠ .idle) : s.opLoad bytes = s := by
  unfold State.opLoad
  split <;> simp_all

/-- `Tick` writes the two timers and nothing else, in every run state (R150). -/
theorem State.opTick_eq (s : State) :
    s.opTick = { s with dt := s.opTick.dt, st := s.opTick.st } := by
  unfold State.opTick
  split <;> rfl

/-- `Halt` writes `run_state` and nothing else (R156). -/
theorem State.opHalt_eq (s : State) : s.opHalt = { s with runState := s.opHalt.runState } := by
  unfold State.opHalt
  split <;> rfl

/-- Everything `Step()` can do: nothing outside RUN; in RUN a fetch fault, an illegal word, or the decoded instruction
(R72, R143). -/
theorem driverStep_cases (s t : State) (h : driverStep s = .next t) :
    (s.runState ≠ .run ∧ t = s) ∨
    (s.runState = .run ∧
      ((∃ e, s.fetch = .error e ∧ t = s.raise e) ∨
       (∃ op, s.fetch = .ok op ∧ decode op = .invalid ∧ t = s.raise ⟨.invalidOpcode, op⟩) ∨
       (∃ op i, s.fetch = .ok op ∧ decode op = .valid i ∧ exec i s = .next t))) := by
  by_cases hr : s.runState = .run
  · refine .inr ⟨hr, ?_⟩
    simp only [driverStep, hr, dispatchOne] at h
    cases hf : s.fetch with
    | error e =>
      simp only [hf] at h
      cases h
      exact .inl ⟨e, rfl, rfl⟩
    | ok op =>
      simp only [hf, runWord] at h
      cases hd : decode op with
      | invalid =>
        simp only [hd] at h
        cases h
        exact .inr (.inl ⟨op, rfl, hd, rfl⟩)
      | valid i =>
        simp only [hd] at h
        exact .inr (.inr ⟨op, i, rfl, hd, h⟩)
  · refine .inl ⟨hr, ?_⟩
    unfold driverStep at h
    split at h
    · exact absurd ‹_› hr
    all_goals
      cases h
      rfl

end Sys2Proof.Machine
end

