-- ==== Sys2Proof/Laws/PerInstr.lean ====
section
/-! SUPPORT. Per instruction: the word the encoder gives it is covered by the row of the opcode map that bears its mnemonic (R65). -/

namespace Sys2Proof.Laws.TableRow

/-- Some row of the opcode map bears the instruction's mnemonic and covers its word. -/
def Statement (i : Instr) : Prop :=
  ∃ r ∈ opcodeTable, r.mnemonic = i.mnemonic ∧ r.covers (encode i) = true

/-- Format `A`: the mask keeps the family (R62). -/
theorem encodeA_family (f : Nibble) (nnn : Addr) : encodeA f nnn &&& 0xF000 = encodeA f 0 := by
  refine BitVec.eq_of_getLsbD_eq fun k hk => ?_
  simp only [encodeA, BitVec.getLsbD_and, BitVec.getLsbD_append]
  interval_cases k <;> simp

/-- Format `XB`: the mask keeps the family (R62). -/
theorem encodeXB_family (f : Nibble) (x : Reg) (nn : Byte) : encodeXB f x nn &&& 0xF000 = encodeXB f 0 0 := by
  refine BitVec.eq_of_getLsbD_eq fun k hk => ?_
  simp only [encodeXB, regBits, BitVec.getLsbD_and, BitVec.getLsbD_append]
  interval_cases k <;> simp

/-- Format `XS`: the mask keeps the family and the selector byte (R62). -/
theorem encodeXB_selector (f : Nibble) (x : Reg) (nn : Byte) : encodeXB f x nn &&& 0xF0FF = encodeXB f 0 nn := by
  refine BitVec.eq_of_getLsbD_eq fun k hk => ?_
  simp only [encodeXB, regBits, BitVec.getLsbD_and, BitVec.getLsbD_append]
  interval_cases k <;> simp

/-- Format `XY`: the mask keeps the family and the selector nibble (R62). -/
theorem encodeXYN_selector (f : Nibble) (x y : Reg) (n : Nibble) : encodeXYN f x y n &&& 0xF00F = encodeXYN f 0 0 n := by
  refine BitVec.eq_of_getLsbD_eq fun k hk => ?_
  simp only [encodeXYN, regBits, BitVec.getLsbD_and, BitVec.getLsbD_append]
  interval_cases k <;> simp

/-- Format `XYN`: the mask keeps the family (R62). -/
theorem encodeXYN_family (f : Nibble) (x y : Reg) (n : Nibble) : encodeXYN f x y n &&& 0xF000 = encodeXYN f 0 0 0 := by
  refine BitVec.eq_of_getLsbD_eq fun k hk => ?_
  simp only [encodeXYN, regBits, BitVec.getLsbD_and, BitVec.getLsbD_append]
  interval_cases k <;> simp

theorem cls : Statement .cls := by
  exact ⟨⟨"CLS", 0x00E0, 0xFFFF⟩, by decide, rfl, by decide⟩

theorem ret : Statement .ret := by
  exact ⟨⟨"RET", 0x00EE, 0xFFFF⟩, by decide, rfl, by decide⟩

theorem jp (nnn : Addr) : Statement (.jp nnn) := by
  refine ⟨⟨"JP", 0x1000, 0xF000⟩, by decide, rfl, ?_⟩
  simp only [OpcodeRow.covers, encode, encodeA_family]
  decide

theorem call (nnn : Addr) : Statement (.call nnn) := by
  refine ⟨⟨"CALL", 0x2000, 0xF000⟩, by decide, rfl, ?_⟩
  simp only [OpcodeRow.covers, encode, encodeA_family]
  decide

theorem sei (x : Reg) (nn : Byte) : Statement (.sei x nn) := by
  refine ⟨⟨"SEI", 0x3000, 0xF000⟩, by decide, rfl, ?_⟩
  simp only [OpcodeRow.covers, encode, encodeXB_family]
  decide

theorem snei (x : Reg) (nn : Byte) : Statement (.snei x nn) := by
  refine ⟨⟨"SNEI", 0x4000, 0xF000⟩, by decide, rfl, ?_⟩
  simp only [OpcodeRow.covers, encode, encodeXB_family]
  decide

theorem ser (x y : Reg) : Statement (.ser x y) := by
  refine ⟨⟨"SER", 0x5000, 0xF00F⟩, by decide, rfl, ?_⟩
  simp only [OpcodeRow.covers, encode, encodeXYN_selector]
  decide

theorem ldi (x : Reg) (nn : Byte) : Statement (.ldi x nn) := by
  refine ⟨⟨"LDI", 0x6000, 0xF000⟩, by decide, rfl, ?_⟩
  simp only [OpcodeRow.covers, encode, encodeXB_family]
  decide

theorem addi (x : Reg) (nn : Byte) : Statement (.addi x nn) := by
  refine ⟨⟨"ADDI", 0x7000, 0xF000⟩, by decide, rfl, ?_⟩
  simp only [OpcodeRow.covers, encode, encodeXB_family]
  decide

theorem mov (x y : Reg) : Statement (.mov x y) := by
  refine ⟨⟨"MOV", 0x8000, 0xF00F⟩, by decide, rfl, ?_⟩
  simp only [OpcodeRow.covers, encode, encodeXYN_selector]
  decide

theorem or (x y : Reg) : Statement (.or x y) := by
  refine ⟨⟨"OR", 0x8001, 0xF00F⟩, by decide, rfl, ?_⟩
  simp only [OpcodeRow.covers, encode, encodeXYN_selector]
  decide

theorem and (x y : Reg) : Statement (.and x y) := by
  refine ⟨⟨"AND", 0x8002, 0xF00F⟩, by decide, rfl, ?_⟩
  simp only [OpcodeRow.covers, encode, encodeXYN_selector]
  decide

theorem xor (x y : Reg) : Statement (.xor x y) := by
  refine ⟨⟨"XOR", 0x8003, 0xF00F⟩, by decide, rfl, ?_⟩
  simp only [OpcodeRow.covers, encode, encodeXYN_selector]
  decide

theorem add (x y : Reg) : Statement (.add x y) := by
  refine ⟨⟨"ADD", 0x8004, 0xF00F⟩, by decide, rfl, ?_⟩
  simp only [OpcodeRow.covers, encode, encodeXYN_selector]
  decide

theorem sub (x y : Reg) : Statement (.sub x y) := by
  refine ⟨⟨"SUB", 0x8005, 0xF00F⟩, by decide, rfl, ?_⟩
  simp only [OpcodeRow.covers, encode, encodeXYN_selector]
  decide

theorem shr (x y : Reg) : Statement (.shr x y) := by
  refine ⟨⟨"SHR", 0x8006, 0xF00F⟩, by decide, rfl, ?_⟩
  simp only [OpcodeRow.covers, encode, encodeXYN_selector]
  decide

theorem subn (x y : Reg) : Statement (.subn x y) := by
  refine ⟨⟨"SUBN", 0x8007, 0xF00F⟩, by decide, rfl, ?_⟩
  simp only [OpcodeRow.covers, encode, encodeXYN_selector]
  decide

theorem shl (x y : Reg) : Statement (.shl x y) := by
  refine ⟨⟨"SHL", 0x800E, 0xF00F⟩, by decide, rfl, ?_⟩
  simp only [OpcodeRow.covers, encode, encodeXYN_selector]
  decide

theorem sner (x y : Reg) : Statement (.sner x y) := by
  refine ⟨⟨"SNER", 0x9000, 0xF00F⟩, by decide, rfl, ?_⟩
  simp only [OpcodeRow.covers, encode, encodeXYN_selector]
  decide

theorem lda (nnn : Addr) : Statement (.lda nnn) := by
  refine ⟨⟨"LDA", 0xA000, 0xF000⟩, by decide, rfl, ?_⟩
  simp only [OpcodeRow.covers, encode, encodeA_family]
  decide

theorem jpv0 (nnn : Addr) : Statement (.jpv0 nnn) := by
  refine ⟨⟨"JPV0", 0xB000, 0xF000⟩, by decide, rfl, ?_⟩
  simp only [OpcodeRow.covers, encode, encodeA_family]
  decide

theorem rnd (x : Reg) (nn : Byte) : Statement (.rnd x nn) := by
  refine ⟨⟨"RND", 0xC000, 0xF000⟩, by decide, rfl, ?_⟩
  simp only [OpcodeRow.covers, encode, encodeXB_family]
  decide

theorem drw (x y : Reg) (n : Nibble) : Statement (.drw x y n) := by
  refine ⟨⟨"DRW", 0xD000, 0xF000⟩, by decide, rfl, ?_⟩
  simp only [OpcodeRow.covers, encode, encodeXYN_family]
  decide

theorem skp (x : Reg) : Statement (.skp x) := by
  refine ⟨⟨"SKP", 0xE09E, 0xF0FF⟩, by decide, rfl, ?_⟩
  simp only [OpcodeRow.covers, encode, encodeXB_selector]
  decide

theorem sknp (x : Reg) : Statement (.sknp x) := by
  refine ⟨⟨"SKNP", 0xE0A1, 0xF0FF⟩, by decide, rfl, ?_⟩
  simp only [OpcodeRow.covers, encode, encodeXB_selector]
  decide

theorem lddt (x : Reg) : Statement (.lddt x) := by
  refine ⟨⟨"LDDT", 0xF007, 0xF0FF⟩, by decide, rfl, ?_⟩
  simp only [OpcodeRow.covers, encode, encodeXB_selector]
  decide

theorem wkey (x : Reg) : Statement (.wkey x) := by
  refine ⟨⟨"WKEY", 0xF00A, 0xF0FF⟩, by decide, rfl, ?_⟩
  simp only [OpcodeRow.covers, encode, encodeXB_selector]
  decide

theorem stdt (x : Reg) : Statement (.stdt x) := by
  refine ⟨⟨"STDT", 0xF015, 0xF0FF⟩, by decide, rfl, ?_⟩
  simp only [OpcodeRow.covers, encode, encodeXB_selector]
  decide

theorem stst (x : Reg) : Statement (.stst x) := by
  refine ⟨⟨"STST", 0xF018, 0xF0FF⟩, by decide, rfl, ?_⟩
  simp only [OpcodeRow.covers, encode, encodeXB_selector]
  decide

theorem adda (x : Reg) : Statement (.adda x) := by
  refine ⟨⟨"ADDA", 0xF01E, 0xF0FF⟩, by decide, rfl, ?_⟩
  simp only [OpcodeRow.covers, encode, encodeXB_selector]
  decide

theorem font (x : Reg) : Statement (.font x) := by
  refine ⟨⟨"FONT", 0xF029, 0xF0FF⟩, by decide, rfl, ?_⟩
  simp only [OpcodeRow.covers, encode, encodeXB_selector]
  decide

theorem bcd (x : Reg) : Statement (.bcd x) := by
  refine ⟨⟨"BCD", 0xF033, 0xF0FF⟩, by decide, rfl, ?_⟩
  simp only [OpcodeRow.covers, encode, encodeXB_selector]
  decide

theorem stm (x : Reg) : Statement (.stm x) := by
  refine ⟨⟨"STM", 0xF055, 0xF0FF⟩, by decide, rfl, ?_⟩
  simp only [OpcodeRow.covers, encode, encodeXB_selector]
  decide

theorem ldm (x : Reg) : Statement (.ldm x) := by
  refine ⟨⟨"LDM", 0xF065, 0xF0FF⟩, by decide, rfl, ?_⟩
  simp only [OpcodeRow.covers, encode, encodeXB_selector]
  decide

end Sys2Proof.Laws.TableRow
end

