-- ==== Sys2Proof/Tests/Slice0.lean ====
section
/-! SUPPORT. The model's own tests. Expected results are the spec's: the vectors of 95_test_vectors.md (V-..) and the worked
examples of the rules. The last part shows, for every statement with hypotheses, states and operands that meet them. -/

namespace Sys2Proof.Tests

open Sys2Proof.Machine

/-- Whether an answer is a next state with the property. -/
def answers (r : Result) (p : State → Bool) : Bool :=
  match r with
  | .next t => p t
  | .fault _ => false
  | .refused _ => false

/-- The reset state put in RUN. -/
def running : State := State.reset.setRun .run

/-- `running` in the other shift mode. -/
def runningVX : State := { running with config := { running.config with shiftQuirkMode := .shiftVX } }

/-- One `Step()` on the word placed at PC. -/
def stepWord (op : Word) (s : State) (p : State → Bool) : Bool := answers (step (placeWord op s)) p

/-- The fault record and PC after a fault. -/
def faultedWith (k : Fault) (info pc : Word) (t : State) : Bool :=
  t.runState == .faulted && t.faultKind == some k && t.faultInfo == info && t.pc == pc

/-! ### Well-formed words (R65, R66) and canonical memory -/

theorem test_rows : opcodeTable.length = 34 := by decide

theorem test_illegal_0NNN : wordWellFormed 0x0000 = false ∧ wordWellFormed 0x00E1 = false ∧ wordWellFormed 0x00EF = false := by
  decide

theorem test_illegal_5_8_9 :
    wordWellFormed 0x5121 = false ∧ wordWellFormed 0x8128 = false ∧ wordWellFormed 0x9AB1 = false := by decide

theorem test_illegal_E_F :
    wordWellFormed 0xE19F = false ∧ wordWellFormed 0xE0A2 = false ∧ wordWellFormed 0xF056 = false ∧
    wordWellFormed 0xFFFF = false := by decide

theorem test_memory_wf_refuses :
    Memory.wf defaultConfig [(5, 1), (5, 2)] = false ∧ Memory.wf defaultConfig [(6, 1), (5, 2)] = false ∧
    Memory.wf defaultConfig [(0x300, 0)] = false ∧ Memory.wf defaultConfig [(0x050, 0xF0)] = false ∧
    Memory.wf defaultConfig [(4096, 1)] = false ∧ Memory.wf defaultConfig [(0x050, 0), (4095, 1)] = true := by decide

/-- The type of `FONT_BASE` is its constraint (R4): 432 is the largest base, and 433 is refused. -/
theorem test_fontBase_bound : (432 : Nat) + 80 ≤ 512 ∧ ¬ (433 : Nat) + 80 ≤ 512 ∧ ∀ b : Fin 433, b.val + 80 ≤ 512 := by
  refine ⟨by decide, by decide, fun b => ?_⟩
  omega

/-! ### Decoding: words written out from the encodings of R62 and R65 -/

theorem test_decode_literal : decode 0b0000000011100000 = .valid .cls ∧ decode 0b0000000011101110 = .valid .ret := by decide

theorem test_decode_address :
    decode 0b0001101010111100 = .valid (.jp 0xABC) ∧ decode 0b0010000100100011 = .valid (.call 0x123) ∧
    decode 0b1010001011110000 = .valid (.lda 0x2F0) ∧ decode 0b1011111111111111 = .valid (.jpv0 0xFFF) := by decide

theorem test_decode_byte :
    decode 0b0011101000010000 = .valid (.sei 10 0x10) ∧ decode 0b0100001100000001 = .valid (.snei 3 0x01) ∧
    decode 0b0110101000101100 = .valid (.ldi 10 0x2C) ∧ decode 0b0111001111111111 = .valid (.addi 3 0xFF) ∧
    decode 0b1100001100001111 = .valid (.rnd 3 0x0F) := by decide

theorem test_decode_registers :
    decode 0b0101000100100000 = .valid (.ser 1 2) ∧ decode 0b1001000100100000 = .valid (.sner 1 2) ∧
    decode 0b1000000100100000 = .valid (.mov 1 2) ∧ decode 0b1000000100100001 = .valid (.or 1 2) ∧
    decode 0b1000000100100010 = .valid (.and 1 2) ∧ decode 0b1000000100100011 = .valid (.xor 1 2) ∧
    decode 0b1000101010110100 = .valid (.add 10 11) := by decide

theorem test_decode_registers_high :
    decode 0b1000000100100101 = .valid (.sub 1 2) ∧ decode 0b1000000100100110 = .valid (.shr 1 2) ∧
    decode 0b1000000100100111 = .valid (.subn 1 2) ∧ decode 0b1000000100101110 = .valid (.shl 1 2) ∧
    decode 0b1101010111000011 = .valid (.drw 5 12 3) := by decide

theorem test_decode_selector :
    decode 0b1110000110011110 = .valid (.skp 1) ∧ decode 0b1110000110100001 = .valid (.sknp 1) ∧
    decode 0b1111000100000111 = .valid (.lddt 1) ∧ decode 0b1111001100001010 = .valid (.wkey 3) ∧
    decode 0b1111000000010101 = .valid (.stdt 0) ∧ decode 0b1111001000011000 = .valid (.stst 2) := by decide

theorem test_decode_selector_high :
    decode 0b1111001000011110 = .valid (.adda 2) ∧ decode 0b1111010000101001 = .valid (.font 4) ∧
    decode 0b1111000000110011 = .valid (.bcd 0) ∧ decode 0b1111001101010101 = .valid (.stm 3) ∧
    decode 0b1111001001100101 = .valid (.ldm 2) := by decide

theorem test_encode : encode (.drw 5 0xA 3) = 0xD5A3 ∧ encode (.add 0xA 0xB) = 0x8AB4 ∧ encode (.stm 3) = 0xF355 := by
  decide

theorem test_encodeBytes : encodeBytes (.jp 0x234) = [0x12, 0x34] := by decide

theorem test_decodeTableWord :
    decodeTableWord 16 0xD5C3 = some (.drw 5 12 3) ∧ decodeTableWord 16 0x0000 = none ∧
    decodeBytes [0x60] = .error .truncated := by decide

/-! ### Step: fetch, decode, run states -/

/-- V-DE-1, V-DE-14: big-endian fetch, and an odd PC executes. -/
theorem test_step_fetch :
    stepWord 0x1234 running (fun t => t.pc == 0x0234) = true ∧
    stepWord 0x602A (running.setPc 0x0203) (fun t => t.reg 0 == 0x2A && t.pc == 0x0205) = true := by decide

/-- V-DE-3, V-DE-11, V-CS-12: an illegal word, and fetches outside memory. -/
theorem test_step_faults :
    answers (step running) (faultedWith .invalidOpcode 0x0000 0x0200) = true ∧
    answers (step (running.setPc 0x0FFF)) (faultedWith .outOfBoundsMemoryAccess 0x1000 0x0FFF) = true ∧
    answers (step (running.setPc 0x10FE)) (faultedWith .outOfBoundsMemoryAccess 0x10FE 0x10FE) = true := by decide

/-- V-LR-4 as a schedule: load three bytes, then two steps. -/
theorem test_boot_schedule :
    answers (performAll [.load [0x60, 0x05, 0x12], .step, .step] State.reset)
      (fun t => t.reg 0 == 5 && t.pc == 0x0200 && t.runState == .run) = true := by decide

theorem test_step_runs_schedule :
    answers (step (State.reset.setSchedule [.load [0x60, 0x05], .step]))
      (fun t => t.runState == .run && t.schedule == [.step] && t.byteAt 0x200 == 0x60) = true := by decide

theorem test_withFetchWord :
    answers (step (State.reset.withFetchWord 16 0x6A7F)) (fun t => t.reg 10 == 0x7F && t.pc == 0x0202) = true := by decide

/-! ### Control -/

theorem test_jp : stepWord 0x1ABC running (fun t => t.pc == 0x0ABC) = true := by decide

/-- V-CS-3. -/
theorem test_call : stepWord 0x2300 running (fun t => t.stack[0] == 0x0202 && t.sp == 1 && t.pc == 0x0300) = true := by
  decide

/-- V-CS-9, the 17th call. -/
theorem test_call_overflow :
    stepWord 0x2200 { running with sp := 16 } (fun t => faultedWith .stackOverflow 0 0x0200 t && t.sp == 16) = true := by
  decide

/-- R81's example, V-CS-10. -/
theorem test_ret :
    answers (exec .ret { running with stack := running.stack.set 0 0x0206, sp := 1, pc := 0x020C })
      (fun t => t.pc == 0x0206 && t.sp == 0) = true ∧
    stepWord 0x00EE running (faultedWith .stackUnderflow 0 0x0200) = true := by decide

/-- V-CS-5, V-CS-6. -/
theorem test_sei :
    stepWord 0x3342 (running.setReg 3 0x42) (fun t => t.pc == 0x0204) = true ∧
    stepWord 0x3343 (running.setReg 3 0x42) (fun t => t.pc == 0x0202) = true := by decide

theorem test_snei :
    stepWord 0x4342 (running.setReg 3 0x42) (fun t => t.pc == 0x0202) = true ∧
    stepWord 0x4343 (running.setReg 3 0x42) (fun t => t.pc == 0x0204) = true := by decide

/-- V-CS-7, V-CS-8. -/
theorem test_ser :
    stepWord 0x5120 ((running.setReg 1 7).setReg 2 7) (fun t => t.pc == 0x0204) = true ∧
    stepWord 0x5120 ((running.setReg 1 7).setReg 2 8) (fun t => t.pc == 0x0202) = true := by decide

theorem test_sner :
    stepWord 0x9120 ((running.setReg 1 7).setReg 2 7) (fun t => t.pc == 0x0202) = true ∧
    stepWord 0x9120 ((running.setReg 1 7).setReg 2 8) (fun t => t.pc == 0x0204) = true := by decide

/-- V-CS-12. -/
theorem test_jpv0 : stepWord 0xBFFF (running.setReg 0 0xFF) (fun t => t.pc == 0x10FE) = true := by decide

/-! ### ALU -/

theorem test_ldi : stepWord 0x6F09 (running.setReg 15 5) (fun t => t.reg 15 == 9) = true := by decide

/-- V-AL-3. -/
theorem test_addi : stepWord 0x7001 (running.setReg 0 0xFF) (fun t => t.reg 0 == 0 && t.reg 15 == 0) = true := by decide

theorem test_mov : stepWord 0x8120 (running.setReg 2 0x99) (fun t => t.reg 1 == 0x99 && t.reg 2 == 0x99) = true := by decide

/-- V-AL-6: VF is not written. -/
theorem test_logic :
    stepWord 0x8011 (((running.setReg 0 0x0C).setReg 1 0x0A).setReg 15 7) (fun t => t.reg 0 == 0x0E && t.reg 15 == 7) = true ∧
    stepWord 0x8012 (((running.setReg 0 0x0C).setReg 1 0x0A).setReg 15 7) (fun t => t.reg 0 == 0x08 && t.reg 15 == 7) = true ∧
    stepWord 0x8013 (((running.setReg 0 0x0C).setReg 1 0x0A).setReg 15 7) (fun t => t.reg 0 == 0x06 && t.reg 15 == 7) = true := by
  decide

/-- S2. -/
theorem test_add :
    stepWord 0x8014 ((running.setReg 0 0xFF).setReg 1 1) (fun t => t.reg 0 == 0 && t.reg 15 == 1) = true ∧
    stepWord 0x8014 ((running.setReg 0 1).setReg 1 1) (fun t => t.reg 0 == 2 && t.reg 15 == 0) = true := by decide

/-- V-AL-10, V-AL-11: VF as destination, VF as operand. -/
theorem test_add_vf :
    stepWord 0x8F14 ((running.setReg 15 3).setReg 1 1) (fun t => t.reg 15 == 0) = true ∧
    stepWord 0x80F4 ((running.setReg 0 2).setReg 15 0xFF) (fun t => t.reg 0 == 1 && t.reg 15 == 1) = true := by decide

/-- S3. -/
theorem test_sub :
    stepWord 0x8015 ((running.setReg 0 5).setReg 1 3) (fun t => t.reg 0 == 2 && t.reg 15 == 1) = true ∧
    stepWord 0x8015 ((running.setReg 0 1).setReg 1 2) (fun t => t.reg 0 == 0xFF && t.reg 15 == 0) = true := by decide

/-- V-AL-17, V-AL-18. -/
theorem test_subn :
    stepWord 0x8017 ((running.setReg 0 5).setReg 1 3) (fun t => t.reg 0 == 0xFE && t.reg 15 == 0) = true ∧
    stepWord 0x8017 ((running.setReg 0 9).setReg 1 9) (fun t => t.reg 0 == 0 && t.reg 15 == 1) = true := by decide

/-- V-AL-19, V-AL-20: both shift modes. -/
theorem test_shr :
    stepWord 0x8016 ((running.setReg 0 0xAA).setReg 1 5) (fun t => t.reg 0 == 2 && t.reg 15 == 1 && t.reg 1 == 5) = true ∧
    stepWord 0x8016 ((runningVX.setReg 0 0xAA).setReg 1 5) (fun t => t.reg 0 == 0x55 && t.reg 15 == 0) = true := by decide

/-- V-AL-21, V-AL-23. -/
theorem test_shl :
    stepWord 0x801E (running.setReg 1 0x81) (fun t => t.reg 0 == 2 && t.reg 15 == 1) = true ∧
    stepWord 0x801E (runningVX.setReg 0 0xFF) (fun t => t.reg 0 == 0xFE && t.reg 15 == 1) = true := by decide

/-- V-AL-27: the draw answers the injected byte. -/
theorem test_rnd :
    stepWord 0xC10F { running with injected := [0xA7, 0x11] }
      (fun t => t.reg 1 == 0x07 && t.injected == [0x11] && t.drawCount == 1) = true := by decide

/-! ### Index and memory -/

theorem test_lda : stepWord 0xAFFF running (fun t => t.i == 0x0FFF) = true := by decide

/-- V-MI-2, V-MI-3. -/
theorem test_adda :
    stepWord 0xF01E ((running.setIndex 0x0FFF).setReg 0 0xFF) (fun t => t.i == 0x10FE) = true ∧
    stepWord 0xF01E ((running.setIndex 0xFFFF).setReg 0 1) (fun t => t.i == 0 && t.reg 15 == 0) = true := by decide

/-- V-MI-5, V-MI-6. -/
theorem test_font :
    stepWord 0xF029 (running.setReg 0 0x1A) (fun t => t.i == 0x0082) = true ∧
    stepWord 0xF029 (running.setReg 0 0x0F) (fun t => t.i == 0x009B) = true := by decide

/-- V-MI-7, V-MI-8. -/
theorem test_bcd :
    stepWord 0xF233 ((running.setIndex 0x300).setReg 2 254)
      (fun t => t.byteAt 0x300 == 2 && t.byteAt 0x301 == 5 && t.byteAt 0x302 == 4 && t.i == 0x300) = true ∧
    stepWord 0xF033 ((running.setIndex 0x0FFE).setReg 0 0x7B)
      (fun t => faultedWith .outOfBoundsMemoryAccess 0x1000 0x0200 t && t.byteAt 0xFFE == 0) = true := by decide

/-- R115's example, V-MI-12. -/
theorem test_stm :
    stepWord 0xF355 ((((running.setIndex 0x400).setReg 0 0x11).setReg 1 0x22).setReg 3 0x44)
      (fun t => t.byteAt 0x400 == 0x11 && t.byteAt 0x401 == 0x22 && t.byteAt 0x402 == 0 && t.byteAt 0x403 == 0x44 &&
        t.i == 0x400) = true ∧
    stepWord 0xF255 ((running.setIndex 0x0FFE).setReg 0 1)
      (fun t => faultedWith .outOfBoundsMemoryAccess 0x1000 0x0200 t && t.byteAt 0xFFE == 0) = true := by decide

/-- V-MI-16, V-MI-15. -/
theorem test_ldm :
    stepWord 0xF465 (running.setIndex 0x050)
      (fun t => t.reg 0 == 0xF0 && t.reg 1 == 0x90 && t.reg 4 == 0xF0 && t.reg 5 == 0) = true ∧
    stepWord 0xF065 (running.setIndex 0x1234) (faultedWith .outOfBoundsMemoryAccess 0x1234 0x0200) = true := by decide

/-! ### Timers and keys -/

theorem test_lddt : stepWord 0xF707 (running.setDelay 0x2C) (fun t => t.reg 7 == 0x2C && t.dt == 0x2C) = true := by decide

theorem test_stdt : stepWord 0xF015 (running.setReg 0 5) (fun t => t.dt == 5 && t.st == 0) = true := by decide

theorem test_stst : stepWord 0xF218 (running.setReg 2 0x1E) (fun t => t.st == 0x1E && t.dt == 0) = true := by decide

/-- V-TK-3, V-TK-7. -/
theorem test_tick :
    answers (perform .tick ((running.setDelay 3).setSound 1)) (fun t => t.dt == 2 && t.st == 0) = true ∧
    answers (perform .tick ((running.setDelay 9).setRun .halted)) (fun t => t.dt == 9) = true := by decide

/-- V-TK-8, V-TK-10. -/
theorem test_skp :
    stepWord 0xE29E ((running.setReg 2 0x17).setKey 7 true) (fun t => t.pc == 0x0204) = true ∧
    stepWord 0xE29E (running.setReg 2 7) (fun t => t.pc == 0x0202) = true := by decide

theorem test_sknp :
    stepWord 0xE2A1 ((running.setReg 2 7).setKey 7 true) (fun t => t.pc == 0x0202) = true ∧
    stepWord 0xE2A1 (running.setReg 2 7) (fun t => t.pc == 0x0204) = true := by decide

/-- V-TK-11. -/
theorem test_wkey :
    stepWord 0xF30A running (fun t => t.runState == .waitKey && t.waitReg == 3 && t.pc == 0x0200) = true := by decide

/-- V-TK-12, V-TK-14. -/
theorem test_keyEvent :
    answers (perform (.keyEvent 7 true) ((running.suspend 3).setKey 7 true))
      (fun t => t.runState == .waitKey && t.reg 3 == 0) = true ∧
    answers (perform (.keyEvent 7 true) (running.suspend 3))
      (fun t => t.runState == .run && t.reg 3 == 7 && t.pc == 0x0202 && t.key 7) = true := by decide

/-! ### Display -/

/-- The sprite of V-DI-2 in memory. -/
def spriteState (x y : Byte) : State :=
  (((running.setIndex 0x300).putByte 0x300 0xC0).putByte 0x301 0x81).setReg 0 x |>.setReg 1 y

theorem test_cls :
    stepWord 0x00E0 (running.setDisplay (Framebuffer.clear.setPixel 31 63 true))
      (fun t => !t.fb.pixel 31 63 && t.pc == 0x0202) = true := by decide

/-- V-DI-2: the four pixels and no collision. -/
theorem test_drw :
    answers (exec (.drw 0 1 2) (spriteState 0 0))
      (fun t => t.fb.pixel 0 0 && t.fb.pixel 0 1 && !t.fb.pixel 0 2 && t.fb.pixel 1 0 && t.fb.pixel 1 7 && t.reg 15 == 0) =
      true := by decide

/-- V-DI-4: wraps on both axes. -/
theorem test_drw_wraps :
    answers (exec (.drw 0 1 2) (spriteState 62 31))
      (fun t => t.fb.pixel 31 62 && t.fb.pixel 31 63 && t.fb.pixel 0 62 && t.fb.pixel 0 5 && t.reg 15 == 0) = true := by decide

/-- V-DI-6: one collision is enough. -/
theorem test_drw_collides :
    answers (exec (.drw 0 1 1) ((spriteState 0 0).setDisplay (Framebuffer.clear.setPixel 0 0 true)))
      (fun t => !t.fb.pixel 0 0 && t.fb.pixel 0 1 && t.reg 15 == 1) = true := by decide

/-- V-DI-8, V-DI-9: no rows, and a row outside memory. -/
theorem test_drw_edges :
    answers (exec (.drw 0 1 0) ((running.setIndex 0x1FFF).setReg 15 1)) (fun t => t.reg 15 == 0 && t.pc == 0x0202) = true ∧
    answers (exec (.drw 0 1 2) ((running.setIndex 0x0FFF).setReg 15 7))
      (fun t => faultedWith .outOfBoundsMemoryAccess 0x1000 0x0200 t && t.reg 15 == 7) = true := by decide

/-! ### Host operations -/

/-- V-LR-5, V-TK-17. -/
theorem test_reset_halt :
    answers (perform .reset ((running.setKey 3 true).setDelay 9))
      (fun t => t.runState == .idle && t.dt == 0 && t.key 3) = true ∧
    answers (perform .halt (running.suspend 3)) (fun t => t.runState == .halted && t.pc == 0x0200) = true := by decide

/-- V-LR-2. -/
theorem test_load_too_large : (State.reset.opLoad (List.replicate 3585 0)).faultKind = some .romTooLarge := by
  rw [State.opLoad_tooLarge _ _ rfl (by rw [List.length_replicate]; decide)]
  rfl

/-! ### Witnesses: states and operands that meet the hypotheses of the statements, at the boundaries of their clauses -/

/-- A computed answer gives the next state a hypothesis asks for. -/
theorem next_of_answers {r : Result} {p : State → Bool} (h : answers r p = true) : ∃ t, r = .next t ∧ p t = true := by
  cases r with
  | next t => exact ⟨t, rfl, h⟩
  | fault e => cases h
  | refused e => cases h

/-- `running` with `n` return addresses on the stack. -/
def stacked (n : Fin 17) : State := { running with sp := n }

/-- `running` after a stack underflow. -/
def faultedState : State := running.raise ⟨.stackUnderflow, 0⟩

theorem witness_DecodeThenEncode : decode 0x00E0 = .valid .cls ∧ decode 0xFF65 = .valid (.ldm 15) := by decide

theorem witness_DecoderMatchesOpcodeTable :
    (∃ r ∈ opcodeTable, r.covers 0x8AB4 = true) ∧
    (∃ r ∈ opcodeTable, ∃ q ∈ opcodeTable, r.covers 0xF165 = true ∧ q.covers 0xF165 = true) := by decide

theorem witness_IllegalWordsAreTheListed :
    [0x0000, 0x5001, 0x8008, 0x900F, 0xE09D, 0xF066].map decode = List.replicate 6 .invalid := by decide

/-- The hypotheses on a state whose two bytes at PC decode to `d`. -/
abbrev Fetches (s : State) (d : Descriptor) : Prop :=
  s.schedule = [] ∧ s.runState = .run ∧ s.pc.toNat ≤ 4094 ∧
  decode (s.byteAt s.pc.toNat ++ s.byteAt (s.pc.toNat + 1)) = d

theorem witness_StepRunsDecodedInstruction :
    Fetches (placeWord 0x6A7F (running.setPc 0x0FFE)) (.valid (.ldi 10 0x7F)) ∧
    Fetches (placeWord 0x6A7F (running.setPc 0x0201)) (.valid (.ldi 10 0x7F)) ∧
    (placeWord 0x6A7F (running.setPc 0x0FFE)).pc = 0x0FFE ∧ (placeWord 0x6A7F (running.setPc 0x0201)).pc = 0x0201 := by decide

theorem witness_StepFaultsBeforeExecution :
    running.schedule = [] ∧ running.runState = .run ∧ 4096 ≤ (running.setPc 0x1000).pc.toNat ∧
    (running.setPc 0x0FFF).pc.toNat = 4095 ∧ Fetches (running.setPc 0x0FFE) .invalid ∧ Fetches running .invalid := by decide

theorem witness_StepOutsideRunChangesNothing :
    ∀ r ∈ [RunState.idle, .waitKey, .halted, .faulted], (running.setRun r).runState ≠ .run ∧
      (running.setRun r).schedule = [] := by decide

theorem witness_StepPerformsScheduledOperation :
    (State.reset.setSchedule [.tick, .halt]).schedule = .tick :: [.halt] ∧ State.reset.schedule = [] := by decide

theorem witness_ByteAccessIsChecked :
    Memory.wf State.reset.config State.reset.mem = true ∧ 4095 < 4096 ∧ 4096 ≤ 4096 ∧ 65535 < 65536 := by decide

theorem witness_FetchIsBigEndian : 4094 ≤ 4094 ∧ 4095 = 4095 ∧ 4096 ≤ 4096 := by decide

/-- The later state may have another PC and other registers: here V0 and PC, at both ends of the store. -/
theorem witness_StoreIsSeenByEveryFetch :
    (∃ t, exec (.stm 15) (running.setIndex 0x0FF0) = .next t ∧ (t.runState == .run) = true) ∧
    (running.setIndex 0x0FF0).dataAddress + ((running.setIndex 0x0FF0).regsUpTo 15).length ≤ 4096 ∧
    (∃ t, exec (.bcd 3) (running.setIndex 0x0FFD) = .next t ∧ (t.runState == .run) = true) ∧
    (running.setIndex 0x0FFD).dataAddress + (bcdDigits (running.reg 3)).length ≤ 4096 ∧
    Memory.wf running.config running.mem = true ∧
    (∀ t : State, ∀ pc ∈ [(0x0FFE : Word), 0x0FEF], let u := (t.setReg 0 0x55).setPc pc
      u.pc.toNat ≤ 4094 ∧ u.byteAt u.pc.toNat = t.byteAt u.pc.toNat ∧
      u.byteAt (u.pc.toNat + 1) = t.byteAt (u.pc.toNat + 1)) := by
  refine ⟨next_of_answers (by decide), by decide, next_of_answers (by decide), by decide, by decide, fun t pc hpc => ?_⟩
  simp only [List.mem_cons, List.not_mem_nil, or_false] at hpc
  rcases hpc with rfl | rfl <;> exact ⟨by simp, rfl, rfl⟩

theorem witness_FaultsArePrecise :
    (running.setPc 0x0FFF).runState ≠ .faulted ∧
    ∃ t, perform .step (running.setPc 0x0FFF) = .next t ∧ (t.runState == .faulted) = true :=
  ⟨by decide, next_of_answers (by decide)⟩

theorem witness_InstructionsRaiseOnlyTheirFault :
    (∃ t, exec .ret (stacked 0) = .next t ∧ (t.faultKind == some .stackUnderflow) = true) ∧
    (∃ t, exec .cls running = .next t ∧ (t.faultKind == none) = true) :=
  ⟨next_of_answers (by decide), next_of_answers (by decide)⟩

theorem witness_FaultedLeftOnlyByReset :
    faultedState.runState = .faulted ∧ faultedState.faultKind ≠ none ∧ running.runState = .run ∧
    (∀ op ∈ [Operation.reset, .load [1], .step, .tick, .keyEvent 3 true, .halt],
      answers (perform op faultedState) (fun _ => true) = true) ∧
    answers (exec (.ldi 0 1) faultedState) (fun _ => true) = true ∧
    answers (exec (.ldi 0 1) running) (fun t => t.runState != .faulted) = true := by decide

theorem witness_JumpRule :
    fieldF 0x1ABC = 0x1 ∧ running.pc.toNat = (0x200 : Addr).toNat ∧ (0xFFF : Addr) = 0xFFF := by decide

theorem witness_CallRule :
    fieldF 0x2300 = 0x2 ∧ (stacked 0).sp.val < 16 ∧ (stacked 15).sp.val < 16 ∧ (stacked 16).sp.val = 16 ∧
    (∃ j : Fin 16, j.val ≠ (stacked 15).sp.val) := by decide

theorem witness_ReturnRule :
    (0x00EE : Word) = 0x00EE ∧ 0 < (stacked 1).sp.val ∧ 0 < (stacked 16).sp.val ∧ (stacked 0).sp.val = 0 := by decide

theorem witness_SkipImmediateRule : fieldF 0x3A10 = 0x3 ∧ fieldF 0x4A10 = 0x4 := by decide

theorem witness_SkipRegisterRule :
    fieldF 0x5120 = 0x5 ∧ fieldN 0x5120 = 0x0 ∧ fieldF 0x9120 = 0x9 ∧ fieldN 0x9120 = 0x0 ∧
    fieldF 0x5121 = 0x5 ∧ fieldN 0x5121 ≠ 0x0 ∧ fieldF 0x912F = 0x9 ∧ fieldN 0x912F ≠ 0x0 := by decide

theorem witness_JumpOffsetRule :
    fieldF 0xBFFF = 0xB ∧
    answers (exec (.jpv0 0xFFF) running) (fun t => decide (t.pc.toNat = 4095)) = true ∧
    answers (exec (.jpv0 0xFFF) (running.setReg 0 1)) (fun t => decide (4096 ≤ t.pc.toNat)) = true := by decide

theorem witness_ReturnFollowsCall :
    ∀ n ∈ [(0 : Fin 17), 15], (stacked n).sp.val < 16 ∧
      ∃ t, exec (.call 0x300) (stacked n) = .next t ∧ (t.sp == n + 1) = true := by
  intro n hn
  simp only [List.mem_cons, List.not_mem_nil, or_false] at hn
  rcases hn with rfl | rfl <;> exact ⟨by decide, next_of_answers (by decide)⟩

theorem witness_SixteenCallsNest :
    (stacked 0).sp.val + (List.replicate 16 (0x300 : Addr)).length ≤ 16 ∧ (stacked 16).sp.val + ([] : List Addr).length ≤ 16 ∧
    (stacked 0).sp = 0 ∧ (List.replicate 16 (0x300 : Addr)).length = 16 ∧
    (∃ j : Fin 16, j.val < (stacked 16).sp.val) := by decide

theorem witness_LoadRegisterRule : fieldF 0x6A2C = 0x6 ∧ fieldF 0x8120 = 0x8 ∧ fieldN 0x8120 = 0x0 := by decide

theorem witness_AddImmediateRule : fieldF 0x7001 = 0x7 := by decide

theorem witness_LogicRule :
    (fieldF 0x8121 = 0x8 ∧ fieldN 0x8121 = 0x1) ∧ (fieldF 0x8122 = 0x8 ∧ fieldN 0x8122 = 0x2) ∧
    (fieldF 0x8123 = 0x8 ∧ fieldN 0x8123 = 0x3) := by decide

theorem witness_AddRule : fieldF 0x8AB4 = 0x8 ∧ fieldN 0x8AB4 = 0x4 ∧ (14 : Reg) ≠ vf := by decide

theorem witness_SubtractRule :
    (fieldF 0x8125 = 0x8 ∧ fieldN 0x8125 = 0x5) ∧ (fieldF 0x8127 = 0x8 ∧ fieldN 0x8127 = 0x7) ∧ (14 : Reg) ≠ vf := by decide

theorem witness_ShiftRightRule : fieldF 0x8126 = 0x8 ∧ fieldN 0x8126 = 0x6 ∧ (14 : Reg) ≠ vf := by decide

theorem witness_ShiftLeftRule : fieldF 0x812E = 0x8 ∧ fieldN 0x812E = 0xE ∧ (14 : Reg) ≠ vf := by decide

theorem witness_RandomRule :
    fieldF 0xC10F = 0xC ∧ ({ running with injected := [0xA7, 0x11] } : State).injected = 0xA7 :: [0x11] ∧
    (running.injected = [] ∧ Config.randomByte 0 = Config.randomByte running.drawCount) ∧
    (∀ x nn, Instr.cls ≠ .rnd x nn) ∧ ∃ t, exec .cls running = .next t ∧ (t.drawCount == 0) = true :=
  ⟨by decide, rfl, ⟨rfl, rfl⟩, (by intro x nn h; cases h), next_of_answers (by decide)⟩

theorem witness_FlagRegisterRule :
    (Instr.drw 0 1 0 ∈ [Instr.add 0 1, .sub 0 1, .shr 0 1, .subn 0 1, .shl 0 1, .drw 0 1 0] ∧
      ∃ t, exec (.drw 0 1 0) running = .next t ∧ (t.runState != .faulted) = true) ∧
    (vf ∉ instrRegs (.ldm 14) ∧ ∃ t, exec (.ldm 14) running = .next t ∧ (t.runState == .run) = true) :=
  ⟨⟨by decide, next_of_answers (by decide)⟩, by decide, next_of_answers (by decide)⟩

theorem witness_LoadIndexRule : fieldF 0xA2F0 = 0xA := by decide

theorem witness_AddToIndexRule : fieldF 0xF21E = 0xF ∧ fieldNN 0xF21E = 0x1E := by decide

theorem witness_FontGlyphRule : fieldF 0xF429 = 0xF ∧ fieldNN 0xF429 = 0x29 := by decide

theorem witness_DecimalDigitsRule :
    fieldF 0xF233 = 0xF ∧ fieldNN 0xF233 = 0x33 ∧ Memory.wf running.config running.mem = true ∧
    (running.setIndex 0x0FFD).i.toNat ≤ 4093 ∧ 4093 < (running.setIndex 0x0FFE).i.toNat := by decide

theorem witness_StoreRegistersRule :
    fieldF 0xF355 = 0xF ∧ fieldNN 0xF355 = 0x55 ∧ Memory.wf running.config running.mem = true ∧
    (running.setIndex 0x0FF0).i.toNat + (15 : Reg).val ≤ 4095 ∧ 4095 < (running.setIndex 0x0FF1).i.toNat + (15 : Reg).val ∧
    (running.setIndex 0x0FFF).i.toNat + (0 : Reg).val ≤ 4095 := by decide

theorem witness_LoadRegistersRule :
    fieldF 0xF365 = 0xF ∧ fieldNN 0xF365 = 0x65 ∧
    (running.setIndex 0x0FF0).i.toNat + (15 : Reg).val ≤ 4095 ∧ 4095 < (running.setIndex 0x0FF1).i.toNat + (15 : Reg).val ∧
    (∃ j : Reg, ¬ j ≤ (14 : Reg)) := by decide

/-- The state in between may hold other registers and another PC: here V0 is overwritten. -/
theorem witness_StoreThenLoadRoundTrip :
    Memory.wf running.config running.mem = true ∧ (running.setIndex 0x0FF0).i.toNat + (15 : Reg).val ≤ 4095 ∧
    (∃ t, exec (.stm 15) (running.setIndex 0x0FF0) = .next t ∧ (t.runState == .run) = true) ∧
    (∀ t : State, OnlyWrites [.regs, .pc] t ((t.setReg 0 0x55).setPc 0)) := by
  refine ⟨by decide, by decide, next_of_answers (by decide), fun t p hp => ?_⟩
  cases p <;> simp_all [Piece.unchanged]

theorem witness_TimerInstructionsRule :
    (fieldF 0xF107 = 0xF ∧ fieldNN 0xF107 = 0x07) ∧ (fieldF 0xF115 = 0xF ∧ fieldNN 0xF115 = 0x15) ∧
    (fieldF 0xF118 = 0xF ∧ fieldNN 0xF118 = 0x18) := by decide

theorem witness_KeySkipRule :
    (fieldF 0xE19E = 0xE ∧ fieldNN 0xE19E = 0x9E) ∧ (fieldF 0xE1A1 = 0xE ∧ fieldNN 0xE1A1 = 0xA1) ∧
    (7 : Key).val = ((running.setReg 2 0x17).reg 2).toNat % 16 ∧ (15 : Key).val = ((running.setReg 2 0xFF).reg 2).toNat % 16 := by
  decide

theorem witness_KeyWaitRule : fieldF 0xF30A = 0xF ∧ fieldNN 0xF30A = 0x0A ∧ running.key 15 = false ∧ (14 : Key) ≠ 15 := by decide

theorem witness_TicksCountDown :
    (∀ r ∈ [RunState.idle, .run, .waitKey], (running.setRun r).runState ∈ [RunState.idle, .run, .waitKey]) ∧
    (∀ r ∈ [RunState.halted, .faulted], (running.setRun r).runState ∈ [RunState.halted, .faulted]) := by decide

theorem witness_KeyEventRule :
    ((running.suspend 3).runState = .waitKey ∧ true = true ∧ (running.suspend 3).key 0 = false) ∧
    ¬ (((running.suspend 3).setKey 0 true).runState = .waitKey ∧ true = true ∧ ((running.suspend 3).setKey 0 true).key 0 = false) ∧
    ¬ (running.runState = .waitKey ∧ true = true ∧ running.key 0 = false) := by decide

theorem witness_ClearDisplayRule : (0x00E0 : Word) = 0x00E0 := by decide

theorem witness_DrawSpriteRule :
    fieldF 0xD5C3 = 0xD ∧ ((0 : Nibble) = 0 ∨ (running.setIndex 0xFFFF).i.toNat + (0 : Nibble).toNat ≤ 4096) ∧
    (running.setIndex 0x0FF1).i.toNat + (15 : Nibble).toNat ≤ 4096 ∧ (15 : Nibble) ≠ 0 ∧
    4096 < (running.setIndex 0x0FF2).i.toNat + (15 : Nibble).toNat := by decide

/-- A sprite of two rows on a clear display: the font's glyph 0 has a 1 bit. -/
theorem witness_DrawingTwiceRestores :
    (0 : Reg) ≠ vf ∧ (1 : Reg) ≠ vf ∧ (running.setIndex 0x050).i.toNat + (2 : Nibble).toNat ≤ 4096 ∧
    (∀ py px, (running.setIndex 0x050).fb.pixel py px = false) ∧
    spriteCovers (running.setIndex 0x050) 0 1 (2 : Nibble).toNat 0 0 = true :=
  ⟨by decide, by decide, by decide, fun py px => Framebuffer.pixel_clear py px, by decide⟩

theorem witness_LoadRule :
    State.reset.runState = .idle ∧ Memory.wf State.reset.config State.reset.mem = true ∧
    (List.replicate 3584 (0xFF : Byte)).length ≤ 3584 ∧ 3584 < (List.replicate 3585 (0xFF : Byte)).length ∧
    running.runState ≠ .idle := by
  simp only [List.length_replicate]
  decide

theorem witness_HaltRule :
    State.reset.runState ∈ [RunState.idle, .run, .waitKey] ∧ running.runState ∈ [RunState.idle, .run, .waitKey] ∧
    (running.suspend 3).runState ∈ [RunState.idle, .run, .waitKey] ∧ faultedState.runState ∈ [RunState.halted, .faulted] ∧
    (running.setRun .halted).runState = .halted ∧ Operation.keyEvent 3 true ≠ .reset ∧
    answers (perform (.keyEvent 3 true) (running.setRun .halted)) (fun t => t.key 3) = true := by decide

theorem witness_ResetRule :
    79 < defaultConfig.fontBase.val ∧ defaultConfig.fontBase.val + 80 ≤ 160 ∧ Piece.keys ∈ [Piece.keys, .params] := by decide

/-- Each transition of `run_state` happens. -/
theorem witness_RunStateTransitions :
    answers (perform .reset running) (fun t => t.runState == .idle) = true ∧
    answers (perform (.load [0x12]) State.reset) (fun t => t.runState == .run) = true ∧
    answers (perform .halt State.reset) (fun t => t.runState == .halted) = true ∧
    answers (perform .step running) (fun t => t.runState == .faulted) = true ∧
    answers (perform .step (placeWord 0xF30A running)) (fun t => t.runState == .waitKey) = true ∧
    answers (perform (.keyEvent 4 true) (running.suspend 3)) (fun t => t.runState == .run) = true := by decide

theorem witness_WriteOwnership :
    (∃ t, exec (.ldi 0 1) running = .next t ∧ (t.reg 0 == 1) = true) ∧
    (Operation.tick ≠ .step ∧ ∃ t, perform .tick (running.setDelay 2) = .next t ∧ (t.dt == 1) = true) ∧
    (∃ t, perform (.keyEvent 4 true) (running.suspend 3) = .next t ∧ (t.reg 3 == 4) = true) ∧
    ¬ ((running.suspend 3).runState = .waitKey ∧ false = true ∧ (running.suspend 3).key 4 = false) ∧
    (∃ t, perform .step (placeWord 0x6A7F running) = .next t ∧ (t.reg 10 == 0x7F) = true) :=
  ⟨next_of_answers (by decide), ⟨by decide, next_of_answers (by decide)⟩, next_of_answers (by decide), by decide,
    next_of_answers (by decide)⟩

/-- A running machine meets the invariant, and a step of it answers. -/
theorem witness_EveryStepKeepsInvariant :
    running.Invariant ∧ ∃ t, step running = .next t ∧ (t.runState == .faulted) = true := by
  refine ⟨⟨by decide, by decide, by decide, by decide, ⟨by decide, rfl⟩, by decide⟩, next_of_answers (by decide)⟩

theorem witness_TickCommutesWithInstruction :
    (∀ x, Instr.ldi 0 1 ≠ .lddt x ∧ Instr.ldi 0 1 ≠ .stdt x ∧ Instr.ldi 0 1 ≠ .stst x) ∧ running.runState = .run ∧
    ∃ t, exec (.ldi 0 1) running = .next t ∧ (t.runState != .faulted) = true :=
  ⟨by decide, by decide, next_of_answers (by decide)⟩

theorem witness_SoundTimerIsNeverRead :
    (∃ t, exec (.stst 2) running = .next t ∧ (t.st == 0) = true) ∧
    (∃ t, exec (.ldi 0 1) (running.setSound 9) = .next t ∧ (t.st == 9) = true) :=
  ⟨next_of_answers (by decide), next_of_answers (by decide)⟩

end Sys2Proof.Tests
end

section
/-! PROOFS. Memory (20_memory.md): the checked byte accesses, the two-byte read with the fetch, and what every fetch sees
after a store by FX33 or FX55. -/

namespace Sys2Proof.Machine

/-! ### One byte (R42, R43) -/

/-- A byte read inside memory (R42). -/
theorem State.memRead_inBounds (s : State) {a : Nat} (ha : a < 4096) : s.memRead a = .ok (s.byteAt a) :=
  if_neg (Nat.not_le.mpr ha)

/-- A byte read outside memory (R42). -/
theorem State.memRead_outside (s : State) {a : Nat} (ha : 4096 ≤ a) : s.memRead a = .error (outOfBounds a) :=
  if_pos ha

/-- A byte write inside memory (R43). -/
theorem State.memWrite_inBounds (s : State) {a : Nat} (b : Byte) (ha : a < 4096) :
    s.memWrite a b = .ok (s.putByte a b) :=
  if_neg (Nat.not_le.mpr ha)

/-- A byte write outside memory (R43). -/
theorem State.memWrite_outside (s : State) {a : Nat} (b : Byte) (ha : 4096 ≤ a) :
    s.memWrite a b = .error (outOfBounds a) :=
  if_pos ha

/-- A store of one byte owns the memory alone (R37, R43). -/
theorem State.putByte_onlyWrites_memory (s : State) (a : Nat) (b : Byte) : OnlyWrites [.memory] s (s.putByte a b) := by
  intro p hp
  cases p with
  | memory => simp at hp
  | _ => simp [Piece.unchanged]

/-- A store of one byte leaves every byte but its own (R43). -/
theorem State.putByte_otherBytes (s : State) (hwf : Memory.wf s.config s.mem = true) (a : Nat) (b : Byte) :
    OtherBytes a 1 s (s.putByte a b) := by
  intro k hk
  have hka : k ≠ a := by omega
  rw [s.byteAt_putByte hwf, if_neg hka]

/-- The recorded address is exact as far as `fault_info` has bits for it (R33). -/
theorem outOfBounds_info_toNat {a : Nat} (ha : a < 65536) : (outOfBounds a).info.toNat = a := by
  simpa [outOfBounds] using ha

/-! ### Two bytes (R44) -/

/-- Everything the two-byte read can do, at any address: the big-endian word when both bytes exist, else the fault with the
lower of the addresses that do not. -/
theorem State.memRead2_eq (s : State) (a : Nat) :
    s.memRead2 a =
      if a ≤ 4094 then .ok (wordOfBytes (s.byteAt a) (s.byteAt (a + 1))) else .error (outOfBounds (max a 4096)) := by
  unfold State.memRead2
  rcases Nat.lt_or_ge a 4096 with hhi | hhi
  · rcases Nat.lt_or_ge (a + 1) 4096 with hlo | hlo
    · have hboth : a ≤ 4094 := by omega
      simp only [s.memRead_inBounds hhi, s.memRead_inBounds hlo, if_pos hboth]
    · obtain rfl : a = 4095 := by omega
      simp [s.memRead_inBounds hhi, s.memRead_outside hlo]
  · have hnone : ¬ a ≤ 4094 := by omega
    simp only [s.memRead_outside hhi, if_neg hnone, max_eq_left hhi]

/-- The fetch answers a word exactly when both bytes at PC exist (R44). -/
theorem State.fetch_ok_iff (s : State) : (∃ op, s.fetch = .ok op) ↔ s.pc.toNat ≤ 4094 := by
  rw [s.fetch_eq]
  split <;> simp [*]

/-! ### The two stores (R114, R115) -/

/-- An FX55 whose registers fit (R115). -/
theorem exec_stm_of_fits (s : State) (x : Reg) (hfit : s.dataAddress + (s.regsUpTo x).length ≤ 4096) :
    exec (.stm x) s = .next (s.putBytes s.dataAddress (s.regsUpTo x)).advance := by
  simp only [exec, execStm, State.writeBytes_eq, if_pos (Or.inr hfit), State.settle_ok]

/-- An FX33 whose digits fit (R114). -/
theorem exec_bcd_of_fits (s : State) (x : Reg) (hfit : s.dataAddress + (bcdDigits (s.reg x)).length ≤ 4096) :
    exec (.bcd x) s = .next (s.putBytes s.dataAddress (bcdDigits (s.reg x))).advance := by
  simp only [exec, execBcd, State.writeBytes_eq, if_pos (Or.inr hfit), State.settle_ok]

end Sys2Proof.Machine

open Sys2Proof Sys2Proof.Machine

/-- Settles O11: the checked accesses are the unchecked ones below 4096, and faults from there up. -/
theorem byteAccessIsChecked : Obligations.ByteAccessIsChecked := by
  refine ⟨fun s a => ⟨s.memRead_inBounds, s.memRead_outside⟩, fun s a b hwf => ⟨fun ha => ?_, s.memWrite_outside b⟩,
    fun a => ⟨rfl, outOfBounds_info_toNat⟩⟩
  refine ⟨s.putByte a b, s.memWrite_inBounds b ha, ?_, s.putByte_otherBytes hwf a b, s.putByte_onlyWrites_memory a b⟩
  rw [s.byteAt_putByte hwf, if_pos rfl]

/-- Settles O12: the two-byte read by the place of its address, and the fetch as that read at PC. -/
theorem fetchIsBigEndian : Obligations.FetchIsBigEndian := by
  refine ⟨fun s a => ⟨fun ha => ?_, fun ha => ?_, fun ha => ?_⟩, fun s => rfl, State.fetch_ok_iff⟩
  · rw [s.memRead2_eq, if_pos ha, wordOfBytes]
  · rw [s.memRead2_eq, ha]
    rfl
  · have hnone : ¬ a ≤ 4094 := by omega
    rw [s.memRead2_eq, if_neg hnone, max_eq_left ha]

/-- Settles O13: both stores are consecutive byte stores and a new PC, and a fetch depends on the two bytes at PC alone. -/
theorem storeIsSeenByEveryFetch : Obligations.StoreIsSeenByEveryFetch := by
  intro s t i bytes hwf hi hfit hexec u hpc hhi hlo seen
  have hstore : exec i s = .next (s.putBytes s.dataAddress bytes).advance := by
    rcases hi with ⟨x, rfl, rfl⟩ | ⟨x, rfl, rfl⟩
    · exact exec_stm_of_fits s x hfit
    · exact exec_bcd_of_fits s x hfit
  obtain rfl : (s.putBytes s.dataAddress bytes).advance = t := by
    rw [hstore] at hexec
    exact Host.Outcome.next.inj hexec
  have hseen (a : Nat) : (s.putBytes s.dataAddress bytes).advance.byteAt a = seen a := by
    rw [State.byteAt_advance, s.byteAt_putBytes hwf _ _ (.inr hfit)]
  rw [u.fetch_eq, if_pos hpc, hhi, hlo, hseen, hseen, wordOfBytes]

end

section
/-! PROOFS. Control transfer (40_control_stack.md): the jump and the four register skips, which write PC alone. -/

namespace Sys2Proof

/-! ### The families of JP and the skips (R64) -/

/-- A word whose family is known and is not 0 is decoded by family (R64). -/
theorem decode_of_fieldF {op : Word} {f : Nibble} (h : fieldF op = f) (hf : f ≠ 0x0#4) :
    decode op = decodeFamily op :=
  decode_of_family op (h ▸ hf)

theorem decode_family1 (op : Word) (h : fieldF op = 0x1#4) : decode op = .valid (.jp (fieldNNN op)) := by
  rw [decode_of_fieldF h (by decide)]
  simp [decodeFamily, h]

theorem decode_family3 (op : Word) (h : fieldF op = 0x3#4) : decode op = .valid (.sei (fieldX op) (fieldNN op)) := by
  rw [decode_of_fieldF h (by decide)]
  simp [decodeFamily, h]

theorem decode_family4 (op : Word) (h : fieldF op = 0x4#4) : decode op = .valid (.snei (fieldX op) (fieldNN op)) := by
  rw [decode_of_fieldF h (by decide)]
  simp [decodeFamily, h]

theorem decode_family5 (op : Word) (h : fieldF op = 0x5#4) :
    decode op = if fieldN op = 0x0 then .valid (.ser (fieldX op) (fieldY op)) else .invalid := by
  rw [decode_of_fieldF h (by decide)]
  simp [decodeFamily, h]

theorem decode_family9 (op : Word) (h : fieldF op = 0x9#4) :
    decode op = if fieldN op = 0x0 then .valid (.sner (fieldX op) (fieldY op)) else .invalid := by
  rw [decode_of_fieldF h (by decide)]
  simp [decodeFamily, h]

end Sys2Proof

namespace Sys2Proof.Machine

/-! ### A new PC -/

/-- Setting PC owns PC alone (R37). -/
theorem State.setPc_onlyWrites_pc (s : State) (w : Word) : OnlyWrites [.pc] s (s.setPc w) := by
  intro p hp
  cases p with
  | pc => simp at hp
  | _ => simp [Piece.unchanged]

/-- Setting PC to the value it has leaves the state as it is. -/
@[simp] theorem State.setPc_pc_self (s : State) : s.setPc s.pc = s := rfl

/-- Widening keeps the address (R63). -/
@[simp] theorem zextAddr_toNat (nnn : Addr) : (zextAddr nnn).toNat = nnn.toNat :=
  BitVec.toNat_setWidth_of_le (by decide)

/-- The fetch of a word whose high or low byte does not exist (R44). -/
theorem State.fetch_outside (s : State) (h : 4095 ≤ s.pc.toNat) :
    s.fetch = .error (outOfBounds (max s.pc.toNat 4096)) := by
  have hpc : ¬ s.pc.toNat ≤ 4094 := by omega
  rw [s.fetch_eq, if_neg hpc]

/-! ### Conditional skips (R73) -/

/-- A skip is a new PC, 4 or 2 further on. -/
theorem State.skipIf_eq_setPc (s : State) (taken : Bool) :
    s.skipIf taken = s.setPc (s.pc + if taken then 4 else 2) := by
  cases taken <;> rfl

/-- A conditional skip completes and writes PC alone; `d` is how far it goes. -/
theorem completes_skipIf (s : State) {taken : Bool} {d : Word} (hd : (if taken then 4 else 2) = d) :
    Completes (.next (s.skipIf taken)) fun t => t.pc = s.pc + d ∧ OnlyWrites [.pc] s t := by
  refine ⟨s.skipIf taken, rfl, ?_⟩
  rw [s.skipIf_eq_setPc, hd]
  exact ⟨s.pc_setPc _, s.setPc_onlyWrites_pc _⟩

/-- The skip on equal bytes (R84, R86). -/
theorem completes_skipIf_eq (s : State) (a b : Byte) :
    Completes (.next (s.skipIf (a == b))) fun t =>
      t.pc = s.pc + (if a = b then 4 else 2) ∧ OnlyWrites [.pc] s t :=
  completes_skipIf s (by simp only [beq_iff_eq])

/-- The skip on different bytes (R85, R87). -/
theorem completes_skipIf_ne (s : State) (a b : Byte) :
    Completes (.next (s.skipIf (a != b))) fun t =>
      t.pc = s.pc + (if a = b then 2 else 4) ∧ OnlyWrites [.pc] s t :=
  completes_skipIf s (by simp only [bne_iff_ne, ne_eq, ite_not])

/-! ### The arms of `exec` (R82, R84 to R87) -/

theorem exec_jp (nnn : Addr) (s : State) : exec (.jp nnn) s = .next (s.setPc (zextAddr nnn)) := rfl

theorem exec_sei (x : Reg) (nn : Byte) (s : State) : exec (.sei x nn) s = .next (s.skipIf (s.reg x == nn)) := rfl

theorem exec_snei (x : Reg) (nn : Byte) (s : State) : exec (.snei x nn) s = .next (s.skipIf (s.reg x != nn)) := rfl

theorem exec_ser (x y : Reg) (s : State) : exec (.ser x y) s = .next (s.skipIf (s.reg x == s.reg y)) := rfl

theorem exec_sner (x y : Reg) (s : State) : exec (.sner x y) s = .next (s.skipIf (s.reg x != s.reg y)) := rfl

end Sys2Proof.Machine

open Sys2Proof Sys2Proof.Machine

/-- Settles O18: JP is a new PC, and a fetch at 0xFFF lacks its low byte. -/
theorem jumpRule : Obligations.JumpRule := by
  refine ⟨decode_family1, fun s nnn => ⟨_, exec_jp nnn s, zextAddr_toNat nnn, s.setPc_onlyWrites_pc _, fun hself => ?_,
    fun hlast => ?_⟩⟩
  · have hpc : zextAddr nnn = s.pc := BitVec.eq_of_toNat_eq ((zextAddr_toNat nnn).trans hself.symm)
    rw [hpc, s.setPc_pc_self]
  · subst hlast
    have hpc : (s.setPc (zextAddr 0xFFF)).pc.toNat = 4095 := zextAddr_toNat 0xFFF
    rw [State.fetch_outside _ hpc.ge, hpc]
    rfl

/-- Settles O21: both are the conditional skip, on equal and on different bytes. -/
theorem skipImmediateRule : Obligations.SkipImmediateRule := by
  refine ⟨decode_family3, decode_family4, fun s x nn => ⟨?_, ?_⟩⟩
  · rw [exec_sei]
    exact completes_skipIf_eq s _ _
  · rw [exec_snei]
    exact completes_skipIf_ne s _ _

/-- Settles O22: the low nibble selects the instruction, and both are the conditional skip. -/
theorem skipRegisterRule : Obligations.SkipRegisterRule := by
  refine ⟨fun op hf hn => ?_, fun op hf hn => ?_, fun op hf hn => ?_, fun s x y => ⟨?_, ?_⟩⟩
  · rw [decode_family5 op hf, if_pos hn]
  · rw [decode_family9 op hf, if_pos hn]
  · rcases hf with h5 | h9
    · rw [decode_family5 op h5, if_neg hn]
    · rw [decode_family9 op h9, if_neg hn]
  · rw [exec_ser]
    exact completes_skipIf_eq s _ _
  · rw [exec_sner]
    exact completes_skipIf_ne s _ _

end

section
/-! PROOFS. Register arithmetic (41_alu.md): the register loads and ADDI, which write one register and step PC. -/

namespace Sys2Proof

/-! ### The families of LDI, ADDI and the register operations (R64) -/

theorem decode_family6 (op : Word) (h : fieldF op = 0x6#4) : decode op = .valid (.ldi (fieldX op) (fieldNN op)) := by
  rw [decode_of_fieldF h (by decide)]
  simp [decodeFamily, h]

theorem decode_family7 (op : Word) (h : fieldF op = 0x7#4) : decode op = .valid (.addi (fieldX op) (fieldNN op)) := by
  rw [decode_of_fieldF h (by decide)]
  simp [decodeFamily, h]

theorem decode_family8 (op : Word) (h : fieldF op = 0x8#4) : decode op = decodeAlu op := by
  rw [decode_of_fieldF h (by decide)]
  simp [decodeFamily, h]

theorem decodeAlu_selector0 (op : Word) (h : fieldN op = 0x0#4) :
    decodeAlu op = .valid (.mov (fieldX op) (fieldY op)) := by
  simp [decodeAlu, h]

end Sys2Proof

namespace Sys2Proof.Machine

/-! ### One register written, then the next instruction (R73, R90) -/

/-- The register written holds the value at the next instruction. -/
theorem State.reg_setReg_advance_self (s : State) (x : Reg) (b : Byte) : (s.setReg x b).advance.reg x = b := by
  rw [State.reg_advance, State.reg_setReg, if_pos rfl]

/-- Writing one register leaves every other, VF included (R90). -/
theorem State.setReg_advance_otherRegs (s : State) (x : Reg) (b : Byte) : OtherRegs [x] s (s.setReg x b).advance := by
  intro y hy
  have hyx : y ≠ x := by simpa using hy
  rw [State.reg_advance, State.reg_setReg, if_neg hyx]

/-- Writing a register and stepping PC owns the registers and PC alone (R37). -/
theorem State.setReg_advance_onlyWrites (s : State) (x : Reg) (b : Byte) :
    OnlyWrites [.regs, .pc] s (s.setReg x b).advance := by
  intro p hp
  cases p with
  | regs | pc => simp at hp
  | _ => simp [Piece.unchanged]

/-- All that writing one register and stepping PC does beside the register's new value. -/
theorem State.setReg_advance_frame (s : State) (x : Reg) (b : Byte) :
    OtherRegs [x] s (s.setReg x b).advance ∧ (s.setReg x b).advance.pc = s.pc + 2 ∧
      OnlyWrites [.regs, .pc] s (s.setReg x b).advance :=
  ⟨s.setReg_advance_otherRegs x b, rfl, s.setReg_advance_onlyWrites x b⟩

/-! ### The arms of `exec` (R91 to R93) -/

theorem exec_ldi (x : Reg) (nn : Byte) (s : State) : exec (.ldi x nn) s = .next (s.setReg x nn).advance := rfl

theorem exec_addi (x : Reg) (nn : Byte) (s : State) :
    exec (.addi x nn) s = .next (s.setReg x (s.reg x + nn)).advance := rfl

theorem exec_mov (x y : Reg) (s : State) : exec (.mov x y) s = .next (s.setReg x (s.reg y)).advance := rfl

end Sys2Proof.Machine

open Sys2Proof Sys2Proof.Machine

/-- Settles O26: both write one register and step PC, with NN and with the old V[Y]. -/
theorem loadRegisterRule : Obligations.LoadRegisterRule := by
  refine ⟨decode_family6, fun op hf hn => ?_, fun s x y nn => ⟨?_, ?_⟩⟩
  · rw [decode_family8 op hf, decodeAlu_selector0 op hn]
  · exact ⟨_, exec_ldi x nn s, s.reg_setReg_advance_self x nn, s.setReg_advance_frame x nn⟩
  · exact ⟨_, exec_mov x y s, s.reg_setReg_advance_self x _, s.setReg_advance_frame x _⟩

/-- Settles O27: ADDI writes one register and steps PC; the sum of two bytes is a byte, so it is reduced modulo 256. -/
theorem addImmediateRule : Obligations.AddImmediateRule := by
  refine ⟨decode_family7, fun s x nn => ⟨_, exec_addi x nn s, ?_, s.setReg_advance_frame x _⟩⟩
  rw [s.reg_setReg_advance_self, BitVec.toNat_add]

end

section
/-! PROOFS. Index register (42_memory_index.md): LDA and FONT, which write I and step PC. -/

namespace Sys2Proof

/-! ### The families of LDA and FONT (R64) -/

theorem decode_familyA (op : Word) (h : fieldF op = 0xA#4) : decode op = .valid (.lda (fieldNNN op)) := by
  rw [decode_of_fieldF h (by decide)]
  simp [decodeFamily, h]

theorem decode_familyF (op : Word) (h : fieldF op = 0xF#4) : decode op = decodeMisc op := by
  rw [decode_of_fieldF h (by decide)]
  simp [decodeFamily, h]

theorem decodeMisc_selector29 (op : Word) (h : fieldNN op = 0x29#8) : decodeMisc op = .valid (.font (fieldX op)) := by
  simp [decodeMisc, h]

end Sys2Proof

namespace Sys2Proof.Machine

/-! ### The index written, then the next instruction (R73, R110) -/

/-- Writing I and stepping PC owns I and PC alone (R37). -/
theorem State.setIndex_advance_onlyWrites (s : State) (w : Word) :
    OnlyWrites [.index, .pc] s (s.setIndex w).advance := by
  intro p hp
  cases p with
  | index | pc => simp at hp
  | _ => simp [Piece.unchanged]

/-- All that writing I and stepping PC does beside the new value of I. -/
theorem State.setIndex_advance_frame (s : State) (w : Word) :
    (s.setIndex w).advance.pc = s.pc + 2 ∧ OnlyWrites [.index, .pc] s (s.setIndex w).advance :=
  ⟨rfl, s.setIndex_advance_onlyWrites w⟩

/-! ### The addresses (R63, R113) -/

/-- A widened address is below 4096 (R111). -/
theorem zextAddr_toNat_le (nnn : Addr) : (zextAddr nnn).toNat ≤ 0x0FFF := by
  rw [zextAddr_toNat]
  exact Nat.le_of_lt_succ nnn.isLt

@[simp] theorem lowNibble_val (b : Byte) : (lowNibble b).val = b.toNat % 16 := rfl

/-- The glyph address does not wrap: `FONT_BASE` is below 433 and a glyph number below 16 (R4, R113). -/
theorem glyphAddress_toNat (c : Config) (d : Fin 16) : (glyphAddress c d).toNat = c.fontBase.val + 5 * d.val := by
  have hbase := c.fontBase.isLt
  have hfits : c.fontBase.val + 5 * d.val < 2 ^ 16 := by omega
  rw [glyphAddress, BitVec.toNat_ofNat, Nat.mod_eq_of_lt hfits]

/-! ### The arms of `exec` (R111, R113) -/

theorem exec_lda (nnn : Addr) (s : State) : exec (.lda nnn) s = .next (s.setIndex (zextAddr nnn)).advance := rfl

theorem exec_font (x : Reg) (s : State) :
    exec (.font x) s = .next (s.setIndex (glyphAddress s.config (lowNibble (s.reg x)))).advance := rfl

end Sys2Proof.Machine

open Sys2Proof Sys2Proof.Machine

/-- Settles O35: LDA writes the widened NNN to I and steps PC; widening keeps an address below 4096. -/
theorem loadIndexRule : Obligations.LoadIndexRule :=
  ⟨decode_familyA, fun s nnn =>
    ⟨_, exec_lda nnn s, zextAddr_toNat nnn, zextAddr_toNat_le nnn, s.setIndex_advance_frame _⟩⟩

/-- Settles O37: FONT writes the glyph address of the low nibble to I and steps PC; that address never wraps. -/
theorem fontGlyphRule : Obligations.FontGlyphRule := by
  refine ⟨fun op hf hnn => ?_, fun s x => ⟨_, exec_font x s, ?_, s.setIndex_advance_frame _⟩⟩
  · rw [decode_familyF op hf, decodeMisc_selector29 op hnn]
  · rw [State.i_advance, State.i_setIndex, glyphAddress_toNat, lowNibble_val]

end

section
/-! PROOFS. Display (44_display.md): CLS, which writes the framebuffer and steps PC. -/

namespace Sys2Proof

/-- The first of the two literal words (R64, R131). -/
theorem decode_clsWord : decode 0x00E0#16 = .valid .cls := by
  rw [decode, if_pos rfl]

end Sys2Proof

namespace Sys2Proof.Machine

/-! ### The framebuffer replaced, then the next instruction (R73, R130) -/

/-- Replacing the framebuffer and stepping PC owns the display and PC alone, so no register, VF included (R37, R131). -/
theorem State.setDisplay_advance_onlyWrites (s : State) (fb : Framebuffer) :
    OnlyWrites [.display, .pc] s (s.setDisplay fb).advance := by
  intro p hp
  cases p with
  | display | pc => simp at hp
  | _ => simp [Piece.unchanged]

/-- All that replacing the framebuffer and stepping PC does beside the new pixels. -/
theorem State.setDisplay_advance_frame (s : State) (fb : Framebuffer) :
    (s.setDisplay fb).advance.pc = s.pc + 2 ∧ OnlyWrites [.display, .pc] s (s.setDisplay fb).advance :=
  ⟨rfl, s.setDisplay_advance_onlyWrites fb⟩

/-! ### The arm of `exec` (R131) -/

theorem exec_cls (s : State) : exec .cls s = .next (s.setDisplay Framebuffer.clear).advance := rfl

end Sys2Proof.Machine

open Sys2Proof Sys2Proof.Machine

/-- Settles O47: CLS replaces the framebuffer by the clear one, whose every pixel is 0, and steps PC. -/
theorem clearDisplayRule : Obligations.ClearDisplayRule := by
  refine ⟨fun op hop => ?_, fun s => ⟨_, exec_cls s, Framebuffer.pixel_clear, s.setDisplay_advance_frame _⟩⟩
  rw [hop]
  exact decode_clsWord

end

section
/-! PROOFS. Faults (60_exceptions.md): what raising one writes (R141), and that only `Reset` leaves FAULTED while no
instruction clears or reads the fault record (R144). -/

namespace Sys2Proof.Machine

/-! ### The frames of a fault and of a key level -/

/-- Raising a fault owns `run_state` and the fault record alone (R37, R141). -/
theorem State.raise_onlyWrites (s : State) (e : Trap) : OnlyWrites [.run, .fault] s (s.raise e) := by
  intro p hp
  cases p with
  | run | fault => simp at hp
  | _ => simp [Piece.unchanged]

/-- Setting a key level owns the key levels alone (R37, R153). -/
theorem State.setKey_onlyWrites_keys (s : State) (k : Key) (b : Bool) : OnlyWrites [.keys] s (s.setKey k b) := by
  intro p hp
  cases p with
  | keys => simp at hp
  | _ => simp [Piece.unchanged]

/-- A state that stays as it is has every piece unchanged. -/
theorem OnlyWrites.refl (ps : List Piece) (s : State) : OnlyWrites ps s s := by
  intro p _
  cases p <;> simp [Piece.unchanged]

/-! ### The operations in FAULTED (R144, R149) -/

/-- `KeyEvent` in FAULTED is the key level (R153). -/
theorem State.opKeyEvent_faulted (s : State) (hs : s.runState = .faulted) (k : Key) (pressed : Bool) :
    s.opKeyEvent k pressed = s.setKey k pressed := by
  simp only [State.opKeyEvent, hs]

/-- The operations that are neither `Reset` nor `KeyEvent` do nothing in FAULTED. -/
theorem perform_faulted (s : State) (hs : s.runState = .faulted) (op : Operation) (hreset : op ≠ .reset)
    (hkey : ∀ k pressed, op ≠ .keyEvent k pressed) : perform op s = .next s := by
  cases op with
  | reset => exact absurd rfl hreset
  | keyEvent k pressed => exact absurd rfl (hkey k pressed)
  | load bytes =>
    have hidle : s.runState ≠ .idle := by simp [hs]
    rw [perform, s.opLoad_notIdle bytes hidle]
  | step => simp only [perform, driverStep, hs]
  | tick => simp only [perform, State.opTick, hs]
  | halt => simp only [perform, State.opHalt, hs]

/-- In FAULTED an operation is the reset, a key level, or nothing at all. -/
theorem perform_faulted_cases (s t : State) (hs : s.runState = .faulted) (op : Operation) (h : perform op s = .next t) :
    (op = .reset ∧ t = s.opReset) ∨ (∃ k pressed, op = .keyEvent k pressed ∧ t = s.setKey k pressed) ∨
    (op ≠ .reset ∧ (∀ k pressed, op ≠ .keyEvent k pressed) ∧ t = s) := by
  by_cases hreset : op = .reset
  · subst hreset
    exact .inl ⟨rfl, (Host.Outcome.next.inj h).symm⟩
  by_cases hkey : ∃ k pressed, op = .keyEvent k pressed
  · obtain ⟨k, pressed, rfl⟩ := hkey
    rw [perform, s.opKeyEvent_faulted hs] at h
    exact .inr (.inl ⟨k, pressed, rfl, (Host.Outcome.next.inj h).symm⟩)
  · have hkey' : ∀ k pressed, op ≠ .keyEvent k pressed := fun k pressed hop => hkey ⟨k, pressed, hop⟩
    rw [perform_faulted s hs op hreset hkey'] at h
    exact .inr (.inr ⟨hreset, hkey', (Host.Outcome.next.inj h).symm⟩)

/-! ### Another fault record -/

/-- The same state with another fault record (R33). -/
def State.withRecord (s : State) (kind : Option Fault) (info : Word) : State :=
  { s with faultKind := kind, faultInfo := info }

section
variable (s : State) (kind : Option Fault) (info : Word)

@[simp] theorem State.faultKind_withRecord : (s.withRecord kind info).faultKind = kind := rfl
@[simp] theorem State.pc_withRecord : (s.withRecord kind info).pc = s.pc := rfl
@[simp] theorem State.sp_withRecord : (s.withRecord kind info).sp = s.sp := rfl
@[simp] theorem State.reg_withRecord (x : Reg) : (s.withRecord kind info).reg x = s.reg x := rfl
@[simp] theorem State.byteAt_withRecord (a : Nat) : (s.withRecord kind info).byteAt a = s.byteAt a := rfl
@[simp] theorem State.dataAddress_withRecord : (s.withRecord kind info).dataAddress = s.dataAddress := rfl
@[simp] theorem State.regsUpTo_withRecord (x : Reg) : (s.withRecord kind info).regsUpTo x = s.regsUpTo x := rfl

/-- A skip does not read the fault record (R73). -/
theorem State.skipIf_withRecord (taken : Bool) :
    (s.withRecord kind info).skipIf taken = (s.skipIf taken).withRecord kind info := by
  cases taken <;> rfl

/-- A push does not read the fault record (R26). -/
theorem State.push_withRecord (w : Word) :
    (s.withRecord kind info).push w = (s.push w).map (·.withRecord kind info) := by
  rcases Nat.lt_or_ge s.sp.val 16 with hroom | hfull
  · rw [s.push_room w hroom, State.push_room _ w (by rwa [State.sp_withRecord])]
    rfl
  · have hsp : s.sp.val = 16 := by omega
    rw [s.push_full w hsp, State.push_full _ w (by rwa [State.sp_withRecord])]
    rfl

/-- A pop does not read the fault record (R26). -/
theorem State.pop_withRecord :
    (s.withRecord kind info).pop = s.pop.map fun p => (p.1, p.2.withRecord kind info) := by
  rcases Nat.eq_zero_or_pos s.sp.val with hempty | hsome
  · rw [s.pop_empty hempty, State.pop_empty _ (by rwa [State.sp_withRecord])]
    rfl
  · rw [s.pop_some hsome, State.pop_some _ (by rwa [State.sp_withRecord])]
    rfl

/-- Checked reads do not read the fault record (R42). -/
theorem State.readBytes_withRecord (a n : Nat) : (s.withRecord kind info).readBytes a n = s.readBytes a n := by
  simp only [State.readBytes_eq, State.byteAt_withRecord]

/-- Consecutive stores do not read the fault record (R56). -/
theorem State.putBytes_withRecord (a : Nat) (bs : List Byte) :
    (s.withRecord kind info).putBytes a bs = (s.putBytes a bs).withRecord kind info := by
  induction bs generalizing s a with
  | nil => rfl
  | cons b bs ih => exact ih (s.putByte a b) (a + 1)

/-- Checked writes do not read the fault record (R43). -/
theorem State.writeBytes_withRecord (a : Nat) (bs : List Byte) :
    (s.withRecord kind info).writeBytes a bs = (s.writeBytes a bs).map (·.withRecord kind info) := by
  rw [State.writeBytes_eq, State.writeBytes_eq, State.putBytes_withRecord]
  split <;> rfl

/-- Consecutive register loads do not read the fault record (R116). -/
theorem State.setRegsFrom_withRecord (j : Nat) (bs : List Byte) :
    (s.withRecord kind info).setRegsFrom j bs = (s.setRegsFrom j bs).withRecord kind info := by
  induction bs generalizing s j with
  | nil => rfl
  | cons b bs ih => exact ih (s.setReg (Fin.ofNat 16 j) b) (j + 1)

end

/-! ### No instruction clears or reads the fault record (R144) -/

/-- From `s` the operation raises a fault, or it completes, does the same from every other fault record, and carries that
record along. -/
def RaisesOrCarriesRecord (f : State → Result) (s : State) : Prop :=
  (∃ e, f s = .next (s.raise e)) ∨
  ∃ t, f s = .next t ∧ ∀ kind info, f (s.withRecord kind info) = .next (t.withRecord kind info)

/-- An operation that cannot fault carries the record when its new state does. -/
theorem raisesOrCarriesRecord_next {g : State → State} {s : State}
    (h : ∀ kind info, g (s.withRecord kind info) = (g s).withRecord kind info) :
    RaisesOrCarriesRecord (fun s => .next (g s)) s :=
  .inr ⟨g s, rfl, fun kind info => congrArg Host.Outcome.next (h kind info)⟩

/-- An operation that can fault carries the record when its computation does. -/
theorem raisesOrCarriesRecord_settle {r : State → Except Trap State} {s : State}
    (h : ∀ kind info, r (s.withRecord kind info) = (r s).map (·.withRecord kind info)) :
    RaisesOrCarriesRecord (fun s => s.settle (r s)) s := by
  cases hr : r s with
  | error e => exact .inl ⟨e, congrArg s.settle hr⟩
  | ok t =>
    refine .inr ⟨t, congrArg s.settle hr, fun kind info => ?_⟩
    have hcarry : r (s.withRecord kind info) = .ok (t.withRecord kind info) := by
      rw [h, hr]
      rfl
    exact congrArg (s.withRecord kind info).settle hcarry

/-- RET, CALL, DRW, BCD, STM and LDM raise or carry the record because the operation they rest on does; the skips because
`skipIf` does; the other instructions never touch it. -/
theorem exec_raisesOrCarriesRecord (i : Instr) (s : State) : RaisesOrCarriesRecord (exec i) s := by
  cases i with
  | ret =>
    refine raisesOrCarriesRecord_settle fun kind info => ?_
    rw [State.pop_withRecord]
    cases s.pop <;> rfl
  | call nnn =>
    refine raisesOrCarriesRecord_settle fun kind info => ?_
    rw [State.push_withRecord, State.pc_withRecord]
    cases s.push (s.pc + 2) <;> rfl
  | drw x y n =>
    refine raisesOrCarriesRecord_settle fun kind info => ?_
    rw [State.readBytes_withRecord, State.dataAddress_withRecord]
    cases s.readBytes s.dataAddress n.toNat <;> rfl
  | bcd x =>
    refine raisesOrCarriesRecord_settle fun kind info => ?_
    rw [State.writeBytes_withRecord, State.dataAddress_withRecord, State.reg_withRecord]
    cases s.writeBytes s.dataAddress (bcdDigits (s.reg x)) <;> rfl
  | stm x =>
    refine raisesOrCarriesRecord_settle fun kind info => ?_
    rw [State.writeBytes_withRecord, State.dataAddress_withRecord, State.regsUpTo_withRecord]
    cases s.writeBytes s.dataAddress (s.regsUpTo x) <;> rfl
  | ldm x =>
    refine raisesOrCarriesRecord_settle fun kind info => ?_
    rw [State.readBytes_withRecord, State.dataAddress_withRecord]
    cases s.readBytes s.dataAddress (x.val + 1) with
    | error e => rfl
    | ok bs =>
      simp only [State.setRegsFrom_withRecord]
      rfl
  | sei | snei | ser | sner | skp | sknp =>
    exact raisesOrCarriesRecord_next fun kind info => s.skipIf_withRecord kind info _
  | _ => exact raisesOrCarriesRecord_next fun _ _ => rfl

/-- What the two cases give for an answered state: a fault just taken, or the record kept and carried. -/
theorem exec_next_record (i : Instr) (s t : State) (h : exec i s = .next t) :
    (∃ e, t = s.raise e) ∨
    (t.faultKind = s.faultKind ∧ ∀ kind info, exec i (s.withRecord kind info) = .next (t.withRecord kind info)) := by
  rcases exec_raisesOrCarriesRecord i s with ⟨e, he⟩ | ⟨u, hu, hcarry⟩
  · exact .inl ⟨e, Host.Outcome.next.inj (h.symm.trans he)⟩
  · obtain rfl : t = u := Host.Outcome.next.inj (h.symm.trans hu)
    have hself : t = t.withRecord s.faultKind s.faultInfo :=
      Host.Outcome.next.inj (h.symm.trans (hcarry s.faultKind s.faultInfo))
    exact .inr ⟨(congrArg State.faultKind hself).trans (t.faultKind_withRecord _ _), hcarry⟩

end Sys2Proof.Machine

open Sys2Proof Sys2Proof.Machine

/-- Settles O14: the three writes of fault entry, and the frame of `raise`. -/
theorem faultEntryWritesRecordOnly : Obligations.FaultEntryWritesRecordOnly :=
  fun s e => ⟨s.runState_raise e, s.faultKind_raise e, s.faultInfo_raise e, s.waitReg_raise e, s.raise_onlyWrites e⟩

/-- Settles O17: the three kinds of operation in FAULTED, and an instruction either raises or carries the record along. -/
theorem faultedLeftOnlyByReset : Obligations.FaultedLeftOnlyByReset := by
  refine ⟨fun op s t hs h => ?_, fun i s t h hfault => ?_, fun i s t kind info _ h hok => ?_⟩
  · rcases perform_faulted_cases s t hs op h with ⟨rfl, rfl⟩ | ⟨k, pressed, rfl, rfl⟩ | ⟨hreset, -, rfl⟩
    · exact ⟨absurd rfl, fun _ => absurd rfl, fun _ => rfl⟩
    · exact ⟨fun _ => s.setKey_onlyWrites_keys k pressed, fun hkey => absurd rfl (hkey k pressed), nofun⟩
    · exact ⟨fun _ => OnlyWrites.refl _ _, fun _ _ => rfl, fun hop => absurd hop hreset⟩
  · rcases exec_next_record i s t h with ⟨e, rfl⟩ | ⟨hkind, -⟩
    · simp
    · rwa [hkind]
  · rcases exec_next_record i s t h with ⟨e, rfl⟩ | ⟨-, hcarry⟩
    · exact absurd (s.runState_raise e) hok
    · exact hcarry kind info

end

section
/-! PROOFS. Decoding and encoding (30_encoding.md): the word of an instruction is read back, a decoded word is the word of
its instruction, and the decoder agrees with the opcode map and with the list of illegal words. -/

namespace Sys2Proof

/-! ### The remaining families and selectors (R64) -/

theorem decode_family2 (op : Word) (h : fieldF op = 0x2#4) : decode op = .valid (.call (fieldNNN op)) := by
  rw [decode_of_fieldF h (by decide)]
  simp [decodeFamily, h]

theorem decode_familyB (op : Word) (h : fieldF op = 0xB#4) : decode op = .valid (.jpv0 (fieldNNN op)) := by
  rw [decode_of_fieldF h (by decide)]
  simp [decodeFamily, h]

theorem decode_familyC (op : Word) (h : fieldF op = 0xC#4) : decode op = .valid (.rnd (fieldX op) (fieldNN op)) := by
  rw [decode_of_fieldF h (by decide)]
  simp [decodeFamily, h]

theorem decode_familyD (op : Word) (h : fieldF op = 0xD#4) :
    decode op = .valid (.drw (fieldX op) (fieldY op) (fieldN op)) := by
  rw [decode_of_fieldF h (by decide)]
  simp [decodeFamily, h]

theorem decode_familyE (op : Word) (h : fieldF op = 0xE#4) : decode op = decodeKey op := by
  rw [decode_of_fieldF h (by decide)]
  simp [decodeFamily, h]

/-- The second of the two literal words (R64, R81). -/
theorem decode_retWord : decode 0x00EE#16 = .valid .ret := by
  rw [decode, if_neg (by decide), if_pos rfl]

section
variable (op : Word)

theorem decode_ser (hf : fieldF op = 0x5#4) (hn : fieldN op = 0x0#4) :
    decode op = .valid (.ser (fieldX op) (fieldY op)) := by
  rw [decode_family5 op hf]
  exact if_pos hn

theorem decode_sner (hf : fieldF op = 0x9#4) (hn : fieldN op = 0x0#4) :
    decode op = .valid (.sner (fieldX op) (fieldY op)) := by
  rw [decode_family9 op hf]
  exact if_pos hn

theorem decode_mov (hf : fieldF op = 0x8#4) (hn : fieldN op = 0x0#4) :
    decode op = .valid (.mov (fieldX op) (fieldY op)) := by
  rw [decode_family8 op hf, decodeAlu_selector0 op hn]

theorem decode_or (hf : fieldF op = 0x8#4) (hn : fieldN op = 0x1#4) :
    decode op = .valid (.or (fieldX op) (fieldY op)) := by
  simp [decode_family8 op hf, decodeAlu, hn]

theorem decode_and (hf : fieldF op = 0x8#4) (hn : fieldN op = 0x2#4) :
    decode op = .valid (.and (fieldX op) (fieldY op)) := by
  simp [decode_family8 op hf, decodeAlu, hn]

theorem decode_xor (hf : fieldF op = 0x8#4) (hn : fieldN op = 0x3#4) :
    decode op = .valid (.xor (fieldX op) (fieldY op)) := by
  simp [decode_family8 op hf, decodeAlu, hn]

theorem decode_add (hf : fieldF op = 0x8#4) (hn : fieldN op = 0x4#4) :
    decode op = .valid (.add (fieldX op) (fieldY op)) := by
  simp [decode_family8 op hf, decodeAlu, hn]

theorem decode_sub (hf : fieldF op = 0x8#4) (hn : fieldN op = 0x5#4) :
    decode op = .valid (.sub (fieldX op) (fieldY op)) := by
  simp [decode_family8 op hf, decodeAlu, hn]

theorem decode_shr (hf : fieldF op = 0x8#4) (hn : fieldN op = 0x6#4) :
    decode op = .valid (.shr (fieldX op) (fieldY op)) := by
  simp [decode_family8 op hf, decodeAlu, hn]

theorem decode_subn (hf : fieldF op = 0x8#4) (hn : fieldN op = 0x7#4) :
    decode op = .valid (.subn (fieldX op) (fieldY op)) := by
  simp [decode_family8 op hf, decodeAlu, hn]

theorem decode_shl (hf : fieldF op = 0x8#4) (hn : fieldN op = 0xE#4) :
    decode op = .valid (.shl (fieldX op) (fieldY op)) := by
  simp [decode_family8 op hf, decodeAlu, hn]

theorem decode_skp (hf : fieldF op = 0xE#4) (hnn : fieldNN op = 0x9E#8) : decode op = .valid (.skp (fieldX op)) := by
  simp [decode_familyE op hf, decodeKey, hnn]

theorem decode_sknp (hf : fieldF op = 0xE#4) (hnn : fieldNN op = 0xA1#8) : decode op = .valid (.sknp (fieldX op)) := by
  simp [decode_familyE op hf, decodeKey, hnn]

theorem decode_lddt (hf : fieldF op = 0xF#4) (hnn : fieldNN op = 0x07#8) : decode op = .valid (.lddt (fieldX op)) := by
  simp [decode_familyF op hf, decodeMisc, hnn]

theorem decode_wkey (hf : fieldF op = 0xF#4) (hnn : fieldNN op = 0x0A#8) : decode op = .valid (.wkey (fieldX op)) := by
  simp [decode_familyF op hf, decodeMisc, hnn]

theorem decode_stdt (hf : fieldF op = 0xF#4) (hnn : fieldNN op = 0x15#8) : decode op = .valid (.stdt (fieldX op)) := by
  simp [decode_familyF op hf, decodeMisc, hnn]

theorem decode_stst (hf : fieldF op = 0xF#4) (hnn : fieldNN op = 0x18#8) : decode op = .valid (.stst (fieldX op)) := by
  simp [decode_familyF op hf, decodeMisc, hnn]

theorem decode_adda (hf : fieldF op = 0xF#4) (hnn : fieldNN op = 0x1E#8) : decode op = .valid (.adda (fieldX op)) := by
  simp [decode_familyF op hf, decodeMisc, hnn]

theorem decode_font (hf : fieldF op = 0xF#4) (hnn : fieldNN op = 0x29#8) : decode op = .valid (.font (fieldX op)) := by
  rw [decode_familyF op hf, decodeMisc_selector29 op hnn]

theorem decode_bcd (hf : fieldF op = 0xF#4) (hnn : fieldNN op = 0x33#8) : decode op = .valid (.bcd (fieldX op)) := by
  simp [decode_familyF op hf, decodeMisc, hnn]

theorem decode_stm (hf : fieldF op = 0xF#4) (hnn : fieldNN op = 0x55#8) : decode op = .valid (.stm (fieldX op)) := by
  simp [decode_familyF op hf, decodeMisc, hnn]

theorem decode_ldm (hf : fieldF op = 0xF#4) (hnn : fieldNN op = 0x65#8) : decode op = .valid (.ldm (fieldX op)) := by
  simp [decode_familyF op hf, decodeMisc, hnn]

end

/-! ### Decoding an encoded word -/

/-- A word of format `A` outside family 0 is decoded by family (R62, R64). -/
theorem decode_encodeA {f : Nibble} (hf : f ≠ 0x0#4) (nnn : Addr) :
    decode (encodeA f nnn) = decodeFamily (encodeA f nnn) :=
  decode_of_fieldF (fieldF_encodeA f nnn) hf

/-- A word of format `XB` or `XS` outside family 0 is decoded by family (R62, R64). -/
theorem decode_encodeXB {f : Nibble} (hf : f ≠ 0x0#4) (x : Reg) (nn : Byte) :
    decode (encodeXB f x nn) = decodeFamily (encodeXB f x nn) :=
  decode_of_fieldF (fieldF_encodeXB f x nn) hf

/-- A word of format `XY` or `XYN` outside family 0 is decoded by family (R62, R64). -/
theorem decode_encodeXYN {f : Nibble} (hf : f ≠ 0x0#4) (x y : Reg) (n : Nibble) :
    decode (encodeXYN f x y n) = decodeFamily (encodeXYN f x y n) :=
  decode_of_fieldF (fieldF_encodeXYN f x y n) hf

/-- The decoder reads every instruction back from its word: its format keeps each of its fields (R61, R65). -/
theorem decode_encode (i : Instr) : decode (encode i) = .valid i := by
  cases i with
  | cls => exact decode_clsWord
  | ret => exact decode_retWord
  | jp | call | lda | jpv0 => simp [encode, decode_encodeA, decodeFamily]
  | sei | snei | ldi | addi | rnd => simp [encode, decode_encodeXB, decodeFamily]
  | ser | sner | drw => simp [encode, decode_encodeXYN, decodeFamily]
  | mov | or | and | xor | add | sub | shr | subn | shl => simp [encode, decode_encodeXYN, decodeFamily, decodeAlu]
  | skp | sknp => simp [encode, decode_encodeXB, decodeFamily, decodeKey]
  | lddt | wkey | stdt | stst | adda | font | bcd | stm | ldm =>
    simp [encode, decode_encodeXB, decodeFamily, decodeMisc]

/-! ### Encoding a decoded word -/

/-- A word of family `f` is the word of format `A` with its `NNN` (R61, R62). -/
theorem encodeA_of_fields {op : Word} {f : Nibble} (hf : fieldF op = f) : encodeA f (fieldNNN op) = op :=
  hf ▸ encodeA_fields op

/-- A word of family `f` with low byte `nn` is the word of format `XS` with its `X` (R61, R62). -/
theorem encodeXB_of_fields {op : Word} {f : Nibble} {nn : Byte} (hf : fieldF op = f) (hnn : fieldNN op = nn) :
    encodeXB f (fieldX op) nn = op := by
  rw [← hf, ← hnn, encodeXB_fields]

/-- A word of family `f` with low nibble `n` is the word of format `XY` with its `X` and `Y` (R61, R62). -/
theorem encodeXYN_of_fields {op : Word} {f n : Nibble} (hf : fieldF op = f) (hn : fieldN op = n) :
    encodeXYN f (fieldX op) (fieldY op) n = op := by
  rw [← hf, ← hn, encodeXYN_fields]

theorem encode_of_decodeAlu {op : Word} {i : Instr} (hf : fieldF op = 0x8#4) (h : decodeAlu op = .valid i) :
    encode i = op := by
  unfold decodeAlu at h
  split at h <;> cases h
  all_goals exact encodeXYN_of_fields hf ‹_›

theorem encode_of_decodeKey {op : Word} {i : Instr} (hf : fieldF op = 0xE#4) (h : decodeKey op = .valid i) :
    encode i = op := by
  unfold decodeKey at h
  split at h <;> cases h
  all_goals exact encodeXB_of_fields hf ‹_›

theorem encode_of_decodeMisc {op : Word} {i : Instr} (hf : fieldF op = 0xF#4) (h : decodeMisc op = .valid i) :
    encode i = op := by
  unfold decodeMisc at h
  split at h <;> cases h
  all_goals exact encodeXB_of_fields hf ‹_›

/-- `h_k` is the match's arm for family `k`, `h_16` the words of no other arm. -/
theorem encode_of_decodeFamily {op : Word} {i : Instr} (h : decodeFamily op = .valid i) : encode i = op := by
  unfold decodeFamily at h
  split at h
  case h_5 hf | h_9 hf =>
    split at h <;> cases h
    exact encodeXYN_of_fields hf ‹_›
  case h_8 hf => exact encode_of_decodeAlu hf h
  case h_14 hf => exact encode_of_decodeKey hf h
  case h_15 hf => exact encode_of_decodeMisc hf h
  case h_16 => cases h
  case h_13 hf =>
    cases h
    exact encodeXYN_of_fields hf rfl
  case h_1 hf | h_2 hf | h_10 hf | h_11 hf =>
    cases h
    exact encodeA_of_fields hf
  all_goals
    cases h
    exact encodeXB_of_fields ‹_› rfl

/-- A word that decodes is its instruction's word: every bit of it is a field or fixed by the decoder (R61, R65). -/
theorem encode_of_decode {op : Word} {i : Instr} (h : decode op = .valid i) : encode i = op := by
  unfold decode at h
  split at h
  · cases h
    exact Eq.symm ‹_›
  · split at h
    · cases h
      exact Eq.symm ‹_›
    · exact encode_of_decodeFamily h

/-! ### The opcode map (R65) -/

theorem fieldF_and (a b : Word) : fieldF (a &&& b) = fieldF a &&& fieldF b := BitVec.extractLsb'_and ..

theorem fieldN_and (a b : Word) : fieldN (a &&& b) = fieldN a &&& fieldN b := BitVec.extractLsb'_and ..

theorem fieldNN_and (a b : Word) : fieldNN (a &&& b) = fieldNN a &&& fieldNN b := BitVec.extractLsb'_and ..

theorem OpcodeRow.covers_iff (r : OpcodeRow) (op : Word) : r.covers op = true ↔ op &&& r.mask = r.pattern := beq_iff_eq

section
variable {r : OpcodeRow} {op : Word} (h : r.covers op = true)
include h

/-- A row that keeps the family fixes it. -/
theorem OpcodeRow.fieldF_of_covers (hm : fieldF r.mask = 0xF#4) : fieldF op = fieldF r.pattern := by
  rw [← (r.covers_iff op).mp h, fieldF_and, hm]
  exact BitVec.and_allOnes.symm

/-- A row that keeps the low nibble fixes it. -/
theorem OpcodeRow.fieldN_of_covers (hm : fieldN r.mask = 0xF#4) : fieldN op = fieldN r.pattern := by
  rw [← (r.covers_iff op).mp h, fieldN_and, hm]
  exact BitVec.and_allOnes.symm

/-- A row that keeps the low byte fixes it. -/
theorem OpcodeRow.fieldNN_of_covers (hm : fieldNN r.mask = 0xFF#8) : fieldNN op = fieldNN r.pattern := by
  rw [← (r.covers_iff op).mp h, fieldNN_and, hm]
  exact BitVec.and_allOnes.symm

/-- A row that keeps every bit covers its pattern alone. -/
theorem OpcodeRow.eq_of_covers (hm : r.mask = 0xFFFF#16) : op = r.pattern := by
  rw [← (r.covers_iff op).mp h, hm]
  exact BitVec.and_allOnes.symm

end

/-- Every word the row covers decodes to an instruction with the row's mnemonic. -/
def OpcodeRow.Decodes (r : OpcodeRow) : Prop :=
  ∀ op, r.covers op = true → ∃ i, decode op = .valid i ∧ i.mnemonic = r.mnemonic

open OpcodeRow in
theorem opcodeRowsLow_decode : ∀ r ∈ opcodeRowsLow, r.Decodes := by
  simp only [opcodeRowsLow, List.forall_mem_cons]
  exact
    ⟨fun op h => ⟨.cls, eq_of_covers h rfl ▸ decode_clsWord, rfl⟩,
     fun op h => ⟨.ret, eq_of_covers h rfl ▸ decode_retWord, rfl⟩,
     fun op h => ⟨_, decode_family1 op (fieldF_of_covers h rfl), rfl⟩,
     fun op h => ⟨_, decode_family2 op (fieldF_of_covers h rfl), rfl⟩,
     fun op h => ⟨_, decode_family3 op (fieldF_of_covers h rfl), rfl⟩,
     fun op h => ⟨_, decode_family4 op (fieldF_of_covers h rfl), rfl⟩,
     fun op h => ⟨_, decode_ser op (fieldF_of_covers h rfl) (fieldN_of_covers h rfl), rfl⟩,
     fun op h => ⟨_, decode_family6 op (fieldF_of_covers h rfl), rfl⟩,
     fun op h => ⟨_, decode_family7 op (fieldF_of_covers h rfl), rfl⟩,
     nofun⟩

open OpcodeRow in
theorem opcodeRowsAlu_decode : ∀ r ∈ opcodeRowsAlu, r.Decodes := by
  simp only [opcodeRowsAlu, List.forall_mem_cons]
  exact
    ⟨fun op h => ⟨_, decode_mov op (fieldF_of_covers h rfl) (fieldN_of_covers h rfl), rfl⟩,
     fun op h => ⟨_, decode_or op (fieldF_of_covers h rfl) (fieldN_of_covers h rfl), rfl⟩,
     fun op h => ⟨_, decode_and op (fieldF_of_covers h rfl) (fieldN_of_covers h rfl), rfl⟩,
     fun op h => ⟨_, decode_xor op (fieldF_of_covers h rfl) (fieldN_of_covers h rfl), rfl⟩,
     fun op h => ⟨_, decode_add op (fieldF_of_covers h rfl) (fieldN_of_covers h rfl), rfl⟩,
     fun op h => ⟨_, decode_sub op (fieldF_of_covers h rfl) (fieldN_of_covers h rfl), rfl⟩,
     fun op h => ⟨_, decode_shr op (fieldF_of_covers h rfl) (fieldN_of_covers h rfl), rfl⟩,
     fun op h => ⟨_, decode_subn op (fieldF_of_covers h rfl) (fieldN_of_covers h rfl), rfl⟩,
     fun op h => ⟨_, decode_shl op (fieldF_of_covers h rfl) (fieldN_of_covers h rfl), rfl⟩,
     fun op h => ⟨_, decode_sner op (fieldF_of_covers h rfl) (fieldN_of_covers h rfl), rfl⟩,
     nofun⟩

open OpcodeRow in
theorem opcodeRowsHigh_decode : ∀ r ∈ opcodeRowsHigh, r.Decodes := by
  simp only [opcodeRowsHigh, List.forall_mem_cons]
  exact
    ⟨fun op h => ⟨_, decode_familyA op (fieldF_of_covers h rfl), rfl⟩,
     fun op h => ⟨_, decode_familyB op (fieldF_of_covers h rfl), rfl⟩,
     fun op h => ⟨_, decode_familyC op (fieldF_of_covers h rfl), rfl⟩,
     fun op h => ⟨_, decode_familyD op (fieldF_of_covers h rfl), rfl⟩,
     fun op h => ⟨_, decode_skp op (fieldF_of_covers h rfl) (fieldNN_of_covers h rfl), rfl⟩,
     fun op h => ⟨_, decode_sknp op (fieldF_of_covers h rfl) (fieldNN_of_covers h rfl), rfl⟩,
     fun op h => ⟨_, decode_lddt op (fieldF_of_covers h rfl) (fieldNN_of_covers h rfl), rfl⟩,
     fun op h => ⟨_, decode_wkey op (fieldF_of_covers h rfl) (fieldNN_of_covers h rfl), rfl⟩,
     fun op h => ⟨_, decode_stdt op (fieldF_of_covers h rfl) (fieldNN_of_covers h rfl), rfl⟩,
     fun op h => ⟨_, decode_stst op (fieldF_of_covers h rfl) (fieldNN_of_covers h rfl), rfl⟩,
     fun op h => ⟨_, decode_adda op (fieldF_of_covers h rfl) (fieldNN_of_covers h rfl), rfl⟩,
     fun op h => ⟨_, decode_font op (fieldF_of_covers h rfl) (fieldNN_of_covers h rfl), rfl⟩,
     fun op h => ⟨_, decode_bcd op (fieldF_of_covers h rfl) (fieldNN_of_covers h rfl), rfl⟩,
     fun op h => ⟨_, decode_stm op (fieldF_of_covers h rfl) (fieldNN_of_covers h rfl), rfl⟩,
     fun op h => ⟨_, decode_ldm op (fieldF_of_covers h rfl) (fieldNN_of_covers h rfl), rfl⟩,
     nofun⟩

theorem opcodeTable_decode : ∀ r ∈ opcodeTable, r.Decodes := by
  intro r hr
  simp only [opcodeTable, List.mem_append] at hr
  rcases hr with (hlow | halu) | hhigh
  · exact opcodeRowsLow_decode r hlow
  · exact opcodeRowsAlu_decode r halu
  · exact opcodeRowsHigh_decode r hhigh

/-- Two rows that cover one word agree where both masks look. -/
theorem OpcodeRow.agree_of_covers {r q : OpcodeRow} {op : Word} (hr : r.covers op = true) (hq : q.covers op = true) :
    r.pattern &&& q.mask = q.pattern &&& r.mask := by
  rw [← (r.covers_iff op).mp hr, ← (q.covers_iff op).mp hq, BitVec.and_assoc, BitVec.and_assoc,
    BitVec.and_comm r.mask]

/-- No two rows of the map agree where both masks look. -/
theorem opcodeTable_disagree {r q : OpcodeRow} (hr : r ∈ opcodeTable) (hq : q ∈ opcodeTable) (hne : r ≠ q) :
    r.pattern &&& q.mask ≠ q.pattern &&& r.mask := by
  have hpairs : opcodeTable.Pairwise fun r q => r.pattern &&& q.mask ≠ q.pattern &&& r.mask := by decide
  have : Std.Symm fun r q : OpcodeRow => r.pattern &&& q.mask ≠ q.pattern &&& r.mask := ⟨fun _ _ h => h.symm⟩
  exact hpairs.forall hr hq hne

/-- Every instruction's word is covered by a row with its mnemonic (R65). -/
theorem tableRow_statement (i : Instr) : Laws.TableRow.Statement i := by
  cases i
  exacts [Laws.TableRow.cls, Laws.TableRow.ret, Laws.TableRow.jp _, Laws.TableRow.call _, Laws.TableRow.sei _ _,
    Laws.TableRow.snei _ _, Laws.TableRow.ser _ _, Laws.TableRow.ldi _ _, Laws.TableRow.addi _ _,
    Laws.TableRow.mov _ _, Laws.TableRow.or _ _, Laws.TableRow.and _ _, Laws.TableRow.xor _ _, Laws.TableRow.add _ _,
    Laws.TableRow.sub _ _, Laws.TableRow.shr _ _, Laws.TableRow.subn _ _, Laws.TableRow.shl _ _,
    Laws.TableRow.sner _ _, Laws.TableRow.lda _, Laws.TableRow.jpv0 _, Laws.TableRow.rnd _ _,
    Laws.TableRow.drw _ _ _, Laws.TableRow.skp _, Laws.TableRow.sknp _, Laws.TableRow.lddt _, Laws.TableRow.wkey _,
    Laws.TableRow.stdt _, Laws.TableRow.stst _, Laws.TableRow.adda _, Laws.TableRow.font _, Laws.TableRow.bcd _,
    Laws.TableRow.stm _, Laws.TableRow.ldm _]

/-- A word is well-formed exactly when it decodes to some instruction (R65, R66). -/
theorem wordWellFormed_iff_decode (op : Word) : wordWellFormed op = true ↔ ∃ i, decode op = .valid i := by
  rw [wordWellFormed, List.any_eq_true]
  constructor
  · rintro ⟨r, hr, hcovers⟩
    obtain ⟨i, hi, -⟩ := opcodeTable_decode r hr op hcovers
    exact ⟨i, hi⟩
  · rintro ⟨i, hi⟩
    obtain ⟨r, hr, -, hcovers⟩ := tableRow_statement i
    exact ⟨r, hr, encode_of_decode hi ▸ hcovers⟩

/-- `Invalid` is the one descriptor that names no instruction (R64). -/
theorem Descriptor.eq_invalid_iff (d : Descriptor) : d = .invalid ↔ ¬ ∃ i, d = .valid i := by
  cases d <;> simp

/-! ### The illegal words (R66) -/

/-- In family 8 the low nibbles 8 to D and F select nothing. -/
theorem decodeAlu_eq_invalid_iff (op : Word) :
    decodeAlu op = .invalid ↔ fieldN op ∈ [0x8#4, 0x9#4, 0xA#4, 0xB#4, 0xC#4, 0xD#4, 0xF#4] := by
  have hselect : ∀ n : Nibble, n ∉ [0x0#4, 0x1#4, 0x2#4, 0x3#4, 0x4#4, 0x5#4, 0x6#4, 0x7#4, 0xE#4] ↔
      n ∈ [0x8#4, 0x9#4, 0xA#4, 0xB#4, 0xC#4, 0xD#4, 0xF#4] := by decide
  rw [← hselect]
  unfold decodeAlu
  split <;> simp_all

/-- In family E only the low bytes 9E and A1 select something. -/
theorem decodeKey_eq_invalid_iff (op : Word) : decodeKey op = .invalid ↔ fieldNN op ∉ [0x9E#8, 0xA1#8] := by
  unfold decodeKey
  split <;> simp_all

/-- In family F only nine low bytes select something. -/
theorem decodeMisc_eq_invalid_iff (op : Word) :
    decodeMisc op = .invalid ↔
      fieldNN op ∉ [0x07#8, 0x0A#8, 0x15#8, 0x18#8, 0x1E#8, 0x29#8, 0x33#8, 0x55#8, 0x65#8] := by
  unfold decodeMisc
  split <;> simp_all

/-- In family 0 the two literal words alone are instructions. -/
theorem decode_family0_eq_invalid_iff (op : Word) (h : fieldF op = 0x0#4) :
    decode op = .invalid ↔ op ≠ 0x00E0 ∧ op ≠ 0x00EE := by
  rw [decode_family0 op h]
  split <;> simp_all

/-- Outside family 0 the illegal words are those of families 5, 8, 9, E and F whose selector selects nothing; `h_k` is the
match's arm for family `k`. -/
theorem decodeFamily_eq_invalid_iff (op : Word) (h : fieldF op ≠ 0x0#4) :
    decodeFamily op = .invalid ↔
      (fieldF op = 0x5 ∧ fieldN op ≠ 0) ∨
      (fieldF op = 0x8 ∧ fieldN op ∈ [0x8#4, 0x9#4, 0xA#4, 0xB#4, 0xC#4, 0xD#4, 0xF#4]) ∨
      (fieldF op = 0x9 ∧ fieldN op ≠ 0) ∨
      (fieldF op = 0xE ∧ fieldNN op ∉ [0x9E#8, 0xA1#8]) ∨
      (fieldF op = 0xF ∧
        fieldNN op ∉ [0x07#8, 0x0A#8, 0x15#8, 0x18#8, 0x1E#8, 0x29#8, 0x33#8, 0x55#8, 0x65#8]) := by
  unfold decodeFamily
  split
  case h_8 hf => rw [decodeAlu_eq_invalid_iff, hf]; simp
  case h_14 hf => rw [decodeKey_eq_invalid_iff, hf]; simp
  case h_15 hf => rw [decodeMisc_eq_invalid_iff, hf]; simp
  case h_5 hf | h_9 hf => rw [hf]; split <;> simp_all
  case h_16 =>
    have hfamilies : ∀ f : Nibble, f ≠ 0x0#4 → f ∈ [0x1#4, 0x2#4, 0x3#4, 0x4#4, 0x5#4, 0x6#4, 0x7#4, 0x8#4, 0x9#4,
      0xA#4, 0xB#4, 0xC#4, 0xD#4, 0xE#4, 0xF#4] := by decide
    have hf := hfamilies (fieldF op) h
    simp_all
  all_goals simp_all

end Sys2Proof

open Sys2Proof

/-- Settles O2: each format keeps the fields its instructions carry. -/
theorem encodeThenDecode : Obligations.EncodeThenDecode := decode_encode

/-- Settles O3: each branch of the decoder takes the word apart into fields that make it up again. -/
theorem decodeThenEncode : Obligations.DecodeThenEncode := fun _ _ => encode_of_decode

/-- Settles O4: the rows decode one by one, their patterns disagree pairwise, and every encoded word has its row. -/
theorem decoderMatchesOpcodeTable : Obligations.DecoderMatchesOpcodeTable := by
  refine ⟨fun op r hr => opcodeTable_decode r hr op, fun op r hr q hq hcr hcq => ?_, fun op => ?_⟩
  · by_contra hne
    exact opcodeTable_disagree hr hq hne (OpcodeRow.agree_of_covers hcr hcq)
  · rw [Descriptor.eq_invalid_iff, ← wordWellFormed_iff_decode, Bool.not_eq_true]

/-- Settles O5: family 0 by its two literal words, the other families by their selectors. -/
theorem illegalWordsAreTheListed : Obligations.IllegalWordsAreTheListed := by
  intro op
  by_cases h : fieldF op = 0x0#4
  · rw [decode_family0_eq_invalid_iff op h, h]
    simp
  · rw [decode_of_family op h, decodeFamily_eq_invalid_iff op h]
    simp [h]

/-- Settles O1: the decoder run on the twelve words. -/
theorem specWordsDecode : Obligations.SpecWordsDecode := by
  unfold Obligations.SpecWordsDecode
  decide

end

section
/-! PROOFS. The instruction cycle (R72, R143) and the schedule (R7): what a step does in each run state, and that every
operation ends in a next state. -/

namespace Sys2Proof.Machine

/-! ### Frames -/

/-- A write that keeps inside `ps` keeps inside every larger list. -/
theorem OnlyWrites.mono {ps qs : List Piece} {s t : State} (h : OnlyWrites ps s t) (hsub : ps ⊆ qs) :
    OnlyWrites qs s t :=
  fun p hp => h p fun hmem => hp (hsub hmem)

/-- A piece unchanged twice is unchanged. -/
theorem Piece.unchanged_trans {p : Piece} {s t u : State} (hst : p.unchanged s t) (htu : p.unchanged t u) :
    p.unchanged s u := by
  cases p with
  | regs | memory | keys => exact fun a => (htu a).trans (hst a)
  | stack | run | fault | random => exact ⟨htu.1.trans hst.1, htu.2.trans hst.2⟩
  | _ => exact htu.trans hst

/-- Two writes that keep inside `ps` do so together. -/
theorem OnlyWrites.trans {ps : List Piece} {s t u : State} (hst : OnlyWrites ps s t) (htu : OnlyWrites ps t u) :
    OnlyWrites ps s u :=
  fun p hp => Piece.unchanged_trans (hst p hp) (htu p hp)

/-- An operation that ends in the fault `e` raises what `e` records (R141). -/
theorem raises_of_eq {s : State} {r : Result} {e : Trap} (h : r = .next (s.raise e)) :
    Raises s r e.kind e.info.toNat :=
  ⟨s.raise e, h, rfl, rfl, rfl, rfl, s.raise_onlyWrites e⟩

/-- An operation that ends in an out-of-bounds fault raises the address, as far as `fault_info` holds it (R33, R42). -/
theorem raises_outOfBounds {s : State} {r : Result} {a : Nat} (ha : a < 65536) (h : r = .next (s.raise (outOfBounds a))) :
    Raises s r .outOfBoundsMemoryAccess a := by
  have hraises := raises_of_eq h
  rwa [outOfBounds_info_toNat ha] at hraises

/-! ### The cycle (R72) -/

theorem step_of_schedule_nil {s : State} (h : s.schedule = []) : step s = driverStep s := by
  simp only [step, transition, h]

theorem step_of_schedule_cons {s : State} {op : Operation} {rest : List Operation} (h : s.schedule = op :: rest) :
    step s = perform op (s.setSchedule rest) := by
  simp only [step, transition, h]

theorem driverStep_of_run {s : State} (h : s.runState = .run) : driverStep s = dispatchOne s := by
  simp only [driverStep, h]

theorem driverStep_of_not_run {s : State} (h : s.runState ≠ .run) : driverStep s = .next s := by
  unfold driverStep
  split
  · exact absurd ‹_› h
  all_goals rfl

/-- A fetch outside memory is the fault (R143). -/
theorem dispatchOne_of_fetch_outside {s : State} (h : 4095 ≤ s.pc.toNat) :
    dispatchOne s = .next (s.raise (outOfBounds (max s.pc.toNat 4096))) := by
  simp only [dispatchOne, s.fetch_outside h]

/-- Inside memory the big-endian word at PC is decoded and executed (R44, R72). -/
theorem dispatchOne_of_fetch_inside {s : State} (h : s.pc.toNat ≤ 4094) :
    dispatchOne s = runWord (s.byteAt s.pc.toNat ++ s.byteAt (s.pc.toNat + 1)) s := by
  simp only [dispatchOne, s.fetch_eq, if_pos h, wordOfBytes]

theorem runWord_of_valid {op : Word} {i : Instr} (h : decode op = .valid i) (s : State) : runWord op s = exec i s := by
  simp only [runWord, h]

theorem runWord_of_invalid {op : Word} (h : decode op = .invalid) (s : State) :
    runWord op s = .next (s.raise ⟨.invalidOpcode, op⟩) := by
  simp only [runWord, h]

/-! ### Every step has a next state (R7) -/

theorem exec_next (i : Instr) (s : State) : ∃ t, exec i s = .next t := by
  rcases exec_raisesOrCarriesRecord i s with ⟨e, he⟩ | ⟨t, ht, -⟩
  · exact ⟨s.raise e, he⟩
  · exact ⟨t, ht⟩

theorem driverStep_next (s : State) : ∃ t, driverStep s = .next t := by
  by_cases hrun : s.runState = .run
  · rw [driverStep_of_run hrun]
    rcases Nat.lt_or_ge s.pc.toNat 4095 with hin | hout
    · rw [dispatchOne_of_fetch_inside (by omega)]
      unfold runWord
      split
      · exact exec_next _ s
      · exact ⟨_, rfl⟩
    · exact ⟨_, dispatchOne_of_fetch_outside hout⟩
  · exact ⟨s, driverStep_of_not_run hrun⟩

theorem perform_next (op : Operation) (s : State) : ∃ t, perform op s = .next t := by
  cases op with
  | step => exact driverStep_next s
  | _ => exact ⟨_, rfl⟩

theorem step_next (s : State) : ∃ t, step s = .next t := by
  cases h : s.schedule with
  | nil => exact step_of_schedule_nil h ▸ driverStep_next s
  | cons op rest => exact step_of_schedule_cons h ▸ perform_next op _

end Sys2Proof.Machine

open Sys2Proof Sys2Proof.Machine

/-- Settles O6: with nothing scheduled a step in RUN is the dispatch of the word at PC. -/
theorem stepRunsDecodedInstruction : Obligations.StepRunsDecodedInstruction := by
  intro s i hsched hrun hpc hdecode
  rw [step_of_schedule_nil hsched, driverStep_of_run hrun, dispatchOne_of_fetch_inside hpc, runWord_of_valid hdecode]

/-- Settles O7: the dispatch by the place of PC, and by the word there. -/
theorem stepFaultsBeforeExecution : Obligations.StepFaultsBeforeExecution := by
  intro s hsched hrun
  rw [step_of_schedule_nil hsched, driverStep_of_run hrun]
  refine ⟨fun hout => ?_, fun hlast => ?_, fun hin hinvalid => ?_⟩
  · refine raises_outOfBounds s.pc.isLt ?_
    rw [dispatchOne_of_fetch_outside (by omega), max_eq_left hout]
  · refine raises_outOfBounds (by decide) ?_
    rw [dispatchOne_of_fetch_outside hlast.ge, hlast]
    rfl
  · rw [dispatchOne_of_fetch_inside hin]
    exact raises_of_eq (runWord_of_invalid hinvalid s)

/-- Settles O8: the driver's step does nothing outside RUN. -/
theorem stepOutsideRunChangesNothing : Obligations.StepOutsideRunChangesNothing :=
  fun _ hrun => ⟨driverStep_of_not_run hrun, fun hsched => (step_of_schedule_nil hsched).trans (driverStep_of_not_run hrun)⟩

/-- Settles O9: the two shapes of the schedule. -/
theorem stepPerformsScheduledOperation : Obligations.StepPerformsScheduledOperation :=
  ⟨fun _ _ _ => step_of_schedule_cons, fun _ => step_of_schedule_nil⟩

/-- Settles O10: an instruction raises or completes, and the cycle and the schedule add no other end. -/
theorem everyStepHasANextState : Obligations.EveryStepHasANextState :=
  ⟨exec_next, perform_next, step_next⟩

end

section
/-! PROOFS. Control transfer and the stack (40_control_stack.md): CALL, RET, JPV0, and the nesting of calls (R178). -/

namespace Sys2Proof.Machine

/-! ### Push and pop (R26) -/

/-- The state with `w` pushed. -/
def State.pushed (s : State) (w : Word) (h : s.sp.val < 16) : State :=
  { s with stack := s.stack.set s.sp.val w, sp := ⟨s.sp.val + 1, by omega⟩ }

/-- The state with the newest address popped. -/
def State.popped (s : State) (h : 0 < s.sp.val) : State :=
  { s with sp := ⟨s.sp.val - 1, by omega⟩ }

theorem State.push_eq_pushed (s : State) (w : Word) (h : s.sp.val < 16) : s.push w = .ok (s.pushed w h) :=
  s.push_room w h

theorem State.pop_eq_popped (s : State) (h : 0 < s.sp.val) : s.pop = .ok (s.stack[s.sp.val - 1], s.popped h) :=
  s.pop_some h

section
variable (s : State) (w : Word) (h : s.sp.val < 16)

theorem State.stack_pushed_self : (s.pushed w h).stack[s.sp.val] = w :=
  Vector.getElem_set_self h

theorem State.stack_pushed_of_ne {j : Nat} (hj : j < 16) (hne : j ≠ s.sp.val) : (s.pushed w h).stack[j] = s.stack[j] :=
  Vector.getElem_set_ne h hj hne.symm

/-- A push owns the stack alone (R37). -/
theorem State.pushed_onlyWrites : OnlyWrites [.stack] s (s.pushed w h) := by
  intro p hp
  cases p with
  | stack => simp at hp
  | regs | memory | keys => exact fun _ => rfl
  | run | fault | random => exact ⟨rfl, rfl⟩
  | _ => rfl

/-- A pop owns the stack alone (R37). -/
theorem State.popped_onlyWrites (h : 0 < s.sp.val) : OnlyWrites [.stack] s (s.popped h) := by
  intro p hp
  cases p with
  | stack => simp at hp
  | regs | memory | keys => exact fun _ => rfl
  | run | fault | random => exact ⟨rfl, rfl⟩
  | _ => rfl

end

/-! ### The arms of `exec` (R81, R83, R88) -/

theorem exec_call_of_room (nnn : Addr) (s : State) (h : s.sp.val < 16) :
    exec (.call nnn) s = .next ((s.pushed (s.pc + 2) h).setPc (zextAddr nnn)) := by
  simp only [exec, execCall, s.push_eq_pushed _ h, State.settle_ok]

theorem exec_call_of_full (nnn : Addr) (s : State) (h : s.sp.val = 16) :
    exec (.call nnn) s = .next (s.raise ⟨.stackOverflow, 0⟩) := by
  simp only [exec, execCall, s.push_full _ h, State.settle_error]

theorem exec_ret_of_some (s : State) (h : 0 < s.sp.val) :
    exec .ret s = .next ((s.popped h).setPc s.stack[s.sp.val - 1]) := by
  simp only [exec, execRet, s.pop_eq_popped h, State.settle_ok]

theorem exec_ret_of_empty (s : State) (h : s.sp.val = 0) : exec .ret s = .next (s.raise ⟨.stackUnderflow, 0⟩) := by
  simp only [exec, execRet, s.pop_empty h, State.settle_error]

theorem exec_jpv0 (nnn : Addr) (s : State) :
    exec (.jpv0 nnn) s = .next (s.setPc (zextAddr nnn + zextByte (s.reg 0))) := rfl

/-! ### Their frames -/

theorem State.call_onlyWrites (s : State) (w target : Word) (h : s.sp.val < 16) :
    OnlyWrites [.pc, .stack] s ((s.pushed w h).setPc target) :=
  ((s.pushed_onlyWrites w h).mono (by simp)).trans ((State.setPc_onlyWrites_pc _ target).mono (by simp))

theorem State.ret_onlyWrites (s : State) (target : Word) (h : 0 < s.sp.val) :
    OnlyWrites [.pc, .stack] s ((s.popped h).setPc target) :=
  ((s.popped_onlyWrites h).mono (by simp)).trans ((State.setPc_onlyWrites_pc _ target).mono (by simp))

/-- The sum of an address and a byte fits 16 bits, so JPV0 does not wrap (R88). -/
theorem jumpOffset_toNat (nnn : Addr) (b : Byte) : (zextAddr nnn + zextByte b).toNat = nnn.toNat + b.toNat := by
  have hnnn := nnn.isLt
  have hb := b.isLt
  have hbyte : (zextByte b).toNat = b.toNat := BitVec.toNat_setWidth_of_le (by decide)
  rw [BitVec.toNat_add, zextAddr_toNat, hbyte, Nat.mod_eq_of_lt (by omega)]

/-- "the largest value any rule can write is 0x10FE" (R23, R88). -/
theorem jumpOffset_toNat_le (nnn : Addr) (b : Byte) : (zextAddr nnn + zextByte b).toNat ≤ 0x10FE := by
  have hnnn := nnn.isLt
  have hb := b.isLt
  rw [jumpOffset_toNat]
  omega

/-! ### Nested calls (R178) -/

/-- What any run of calls with room for them does: it completes, and the addresses already there stay. -/
theorem completes_execAll_calls (targets : List Addr) (s : State) (h : s.sp.val + targets.length ≤ 16) :
    Completes (execAll (targets.map Instr.call) s) fun t =>
      t.sp.val = s.sp.val + targets.length ∧ OnlyWrites [.pc, .stack] s t ∧
      ∀ j : Fin 16, j.val < s.sp.val → t.stack[j.val] = s.stack[j.val] := by
  induction targets generalizing s with
  | nil => exact ⟨s, rfl, rfl, OnlyWrites.refl _ s, fun _ _ => rfl⟩
  | cons nnn targets ih =>
    rw [List.length_cons] at h
    have hroom : s.sp.val < 16 := by omega
    have hsp : ((s.pushed (s.pc + 2) hroom).setPc (zextAddr nnn)).sp.val = s.sp.val + 1 := rfl
    obtain ⟨t, hrun, htsp, hframe, hstack⟩ := ih ((s.pushed (s.pc + 2) hroom).setPc (zextAddr nnn)) (by omega)
    refine ⟨t, ?_, ?_, (s.call_onlyWrites _ _ hroom).trans hframe, fun j hj => ?_⟩
    · simpa only [List.map_cons, execAll, exec_call_of_room nnn s hroom] using hrun
    · rw [htsp, hsp, List.length_cons]
      omega
    · exact (hstack j (by omega)).trans (s.stack_pushed_of_ne _ hroom j.isLt hj.ne)

end Sys2Proof.Machine

open Sys2Proof Sys2Proof.Machine

/-- Settles O19: CALL is a push and a new PC when there is room, and the overflow when there is none. -/
theorem callRule : Obligations.CallRule := by
  refine ⟨decode_family2, fun s nnn => ⟨fun h => ?_, fun h => raises_of_eq (exec_call_of_full nnn s h)⟩⟩
  exact ⟨_, exec_call_of_room nnn s h, zextAddr_toNat nnn, rfl, s.stack_pushed_self _ h,
    fun j hj => s.stack_pushed_of_ne _ h j.isLt hj, s.call_onlyWrites _ _ h⟩

/-- Settles O20: RET is a pop and a new PC when an address is there, and the underflow when none is. -/
theorem returnRule : Obligations.ReturnRule := by
  refine ⟨fun op hop => hop ▸ decode_retWord, fun s => ⟨fun h => ?_, fun h => raises_of_eq (exec_ret_of_empty s h)⟩⟩
  exact ⟨_, exec_ret_of_some s h, rfl, rfl, rfl, s.ret_onlyWrites _ h⟩

/-- Settles O23: JPV0 is a new PC, a sum that cannot wrap. -/
theorem jumpOffsetRule : Obligations.JumpOffsetRule := by
  refine ⟨decode_familyB, fun s nnn => ⟨_, exec_jpv0 nnn s, jumpOffset_toNat nnn _, jumpOffset_toNat_le nnn _,
    s.setPc_onlyWrites_pc _, fun hout => ?_⟩⟩
  rw [State.fetch_outside _ (by omega), max_eq_left hout]

/-- Settles O24: the RET pops what the CALL pushed. -/
theorem returnFollowsCall : Obligations.ReturnFollowsCall := by
  intro s t u nnn hroom hcall hstack hsp
  obtain rfl := Host.Outcome.next.inj ((exec_call_of_room nnn s hroom).symm.trans hcall)
  have huser : u.sp.val = s.sp.val + 1 := congrArg Fin.val hsp
  have hsome : 0 < u.sp.val := by omega
  refine ⟨_, exec_ret_of_some u hsome, ?_, ?_, fun j hj => ?_⟩
  · simp only [State.pc_setPc, hstack, huser, Nat.add_sub_cancel]
    exact s.stack_pushed_self _ hroom
  · refine Fin.ext ?_
    change u.sp.val - 1 = s.sp.val
    omega
  · change u.stack[j.val] = _
    simp only [hstack]
    exact s.stack_pushed_of_ne _ hroom j.isLt hj.ne

/-- Settles O25: runs of calls by induction, then the call that finds no room and the return that finds no address. -/
theorem sixteenCallsNest : Obligations.SixteenCallsNest := by
  refine ⟨fun s targets h => completes_execAll_calls targets s h, fun s targets nnn hempty hlen => ?_, fun s hempty => ?_⟩
  · obtain ⟨t, hrun, hsp, -⟩ := completes_execAll_calls targets s (by simp [hempty, hlen])
    refine ⟨t, hrun, raises_of_eq (exec_call_of_full nnn t ?_)⟩
    simp [hsp, hempty, hlen]
  · exact raises_of_eq (exec_ret_of_empty s (by simp [hempty]))

end

section
/-! PROOFS. Arithmetic, logic and shifts (41_alu.md): one result, and for ADD, SUB, SHR, SUBN and SHL its flag in VF (R90). -/

namespace Sys2Proof.Machine

/-! ### A result and a flag, then the next instruction (R73, R90) -/

section
variable (s : State) (x : Reg) (r f : Byte)

/-- VF holds the flag, whatever the destination (R90). -/
theorem State.vf_setResultAndFlag_advance : (s.setResultAndFlag x r f).advance.reg vf = f := by
  rw [State.reg_advance, State.reg_setResultAndFlag, if_pos rfl]

/-- A destination other than VF holds the result (R90). -/
theorem State.reg_setResultAndFlag_advance {x : Reg} (hx : x ≠ vf) : (s.setResultAndFlag x r f).advance.reg x = r := by
  rw [State.reg_advance, State.reg_setResultAndFlag, if_neg hx, if_pos rfl]

theorem State.setResultAndFlag_advance_otherRegs : OtherRegs [x, vf] s (s.setResultAndFlag x r f).advance := by
  intro y hy
  obtain ⟨hyx, hyf⟩ : y ≠ x ∧ y ≠ vf := by simpa using hy
  rw [State.reg_advance, State.reg_setResultAndFlag, if_neg hyf, if_neg hyx]

/-- A result and its flag own the registers and PC alone (R37). -/
theorem State.setResultAndFlag_advance_onlyWrites :
    OnlyWrites [.regs, .pc] s (s.setResultAndFlag x r f).advance := by
  intro p hp
  cases p with
  | regs | pc => simp at hp
  | _ => simp [Piece.unchanged, State.setResultAndFlag]

/-- All that a result and its flag do beside the two values. -/
theorem State.setResultAndFlag_advance_frame :
    OtherRegs [x, vf] s (s.setResultAndFlag x r f).advance ∧ (s.setResultAndFlag x r f).advance.pc = s.pc + 2 ∧
      OnlyWrites [.regs, .pc] s (s.setResultAndFlag x r f).advance :=
  ⟨s.setResultAndFlag_advance_otherRegs x r f, rfl, s.setResultAndFlag_advance_onlyWrites x r f⟩

end

/-! ### The flags (R21, R90) -/

/-- A flag is 0x00 or 0x01 (R90 d). -/
theorem flagByte_zero_or_one (b : Bool) : flagByte b = 0 ∨ flagByte b = 1 := by
  cases b
  · exact .inl rfl
  · exact .inr rfl

theorem flagByte_eq_one_iff (b : Bool) : flagByte b = 1 ↔ b = true := by
  cases b <;> decide

theorem flagByte_decide (p : Prop) [Decidable p] : flagByte (decide p) = if p then 1 else 0 := by
  by_cases h : p <;> simp [flagByte, h]

theorem flagByte_toNat (b : Bool) : (flagByte b).toNat = b.toNat := by
  cases b <;> rfl

/-- The bit shifted out at the low end (R99). -/
theorem lowBitFlag_toNat (b : Byte) : (lowBitFlag b).toNat = b.toNat % 2 := by
  rw [lowBitFlag, flagByte_toNat, BitVec.getLsbD, Nat.toNat_testBit]
  simp

/-- The bit shifted out at the high end (R101). -/
theorem highBitFlag_toNat (b : Byte) : (highBitFlag b).toNat = b.toNat / 128 := by
  have hb := b.isLt
  rw [highBitFlag, flagByte_toNat, BitVec.getLsbD, Nat.toNat_testBit]
  omega

/-! ### The results -/

/-- The difference of two bytes (R98, R100). -/
theorem sub_toNat (a b : Byte) : (a - b).toNat = (a.toNat + 256 - b.toNat) % 256 := by
  have hb := b.isLt
  rw [BitVec.toNat_sub]
  omega

theorem shiftRight_toNat (b : Byte) : (b >>> 1).toNat = b.toNat / 2 := by
  rw [BitVec.toNat_ushiftRight, Nat.shiftRight_eq_div_pow, pow_one]

theorem shiftLeft_toNat (b : Byte) : (b <<< 1).toNat = 2 * b.toNat % 256 := by
  rw [BitVec.toNat_shiftLeft, Nat.shiftLeft_eq, pow_one, Nat.mul_comm]

/-- The shift source by the mode (R103). -/
theorem State.shiftSource_eq (s : State) (x y : Reg) :
    s.shiftSource x y = if s.config.shiftQuirkMode = .shiftVY then s.reg y else s.reg x := by
  unfold State.shiftSource
  cases s.config.shiftQuirkMode <;> rfl

/-! ### The arms of `exec` (R94 to R101) -/

theorem exec_or (x y : Reg) (s : State) : exec (.or x y) s = .next (s.setReg x (s.reg x ||| s.reg y)).advance := rfl

theorem exec_and (x y : Reg) (s : State) : exec (.and x y) s = .next (s.setReg x (s.reg x &&& s.reg y)).advance := rfl

theorem exec_xor (x y : Reg) (s : State) : exec (.xor x y) s = .next (s.setReg x (s.reg x ^^^ s.reg y)).advance := rfl

theorem exec_add (x y : Reg) (s : State) :
    exec (.add x y) s =
      .next (s.setResultAndFlag x (s.reg x + s.reg y) (carryFlag (s.reg x) (s.reg y))).advance := rfl

theorem exec_sub (x y : Reg) (s : State) :
    exec (.sub x y) s =
      .next (s.setResultAndFlag x (s.reg x - s.reg y) (noBorrowFlag (s.reg x) (s.reg y))).advance := rfl

theorem exec_shr (x y : Reg) (s : State) :
    exec (.shr x y) s =
      .next (s.setResultAndFlag x (s.shiftSource x y >>> 1) (lowBitFlag (s.shiftSource x y))).advance := rfl

theorem exec_subn (x y : Reg) (s : State) :
    exec (.subn x y) s =
      .next (s.setResultAndFlag x (s.reg y - s.reg x) (noBorrowFlag (s.reg y) (s.reg x))).advance := rfl

theorem exec_shl (x y : Reg) (s : State) :
    exec (.shl x y) s =
      .next (s.setResultAndFlag x (s.shiftSource x y <<< 1) (highBitFlag (s.shiftSource x y))).advance := rfl

end Sys2Proof.Machine

open Sys2Proof Sys2Proof.Machine

/-- Settles O28: the three write one register bit by bit and step PC. -/
theorem logicRule : Obligations.LogicRule := by
  refine ⟨decode_or, decode_and, decode_xor, fun s x y =>
    ⟨⟨_, exec_or x y s, fun b => ?_, s.setReg_advance_frame x _⟩,
     ⟨_, exec_and x y s, fun b => ?_, s.setReg_advance_frame x _⟩,
     ⟨_, exec_xor x y s, fun b => ?_, s.setReg_advance_frame x _⟩⟩⟩
  · rw [s.reg_setReg_advance_self, BitVec.getLsbD_or]
  · rw [s.reg_setReg_advance_self, BitVec.getLsbD_and]
  · rw [s.reg_setReg_advance_self, BitVec.getLsbD_xor]

/-- Settles O29: the sum is the result and the carry its flag. -/
theorem addRule : Obligations.AddRule := by
  refine ⟨decode_add, fun s x y => ⟨_, exec_add x y s, ?_, fun hx => ?_, s.setResultAndFlag_advance_frame x _ _⟩⟩
  · rw [s.vf_setResultAndFlag_advance, carryFlag, flagByte_decide]
  · rw [s.reg_setResultAndFlag_advance _ _ hx, BitVec.toNat_add]

/-- Settles O30: the difference is the result and the absence of a borrow its flag, in both directions. -/
theorem subtractRule : Obligations.SubtractRule := by
  refine ⟨decode_sub, decode_subn, fun s x y =>
    ⟨⟨_, exec_sub x y s, ?_, fun hx => ?_, s.setResultAndFlag_advance_frame x _ _⟩,
     ⟨_, exec_subn x y s, ?_, fun hx => ?_, s.setResultAndFlag_advance_frame x _ _⟩⟩⟩
  · rw [s.vf_setResultAndFlag_advance, noBorrowFlag, flagByte_decide]
  · rw [s.reg_setResultAndFlag_advance _ _ hx, sub_toNat]
  · rw [s.vf_setResultAndFlag_advance, noBorrowFlag, flagByte_decide]
  · rw [s.reg_setResultAndFlag_advance _ _ hx, sub_toNat]

/-- Settles O31: half the shift source is the result and its lowest bit the flag. -/
theorem shiftRightRule : Obligations.ShiftRightRule := by
  refine ⟨decode_shr, fun s x y => ?_⟩
  rw [← s.shiftSource_eq x y]
  refine ⟨_, exec_shr x y s, ?_, fun hx => ?_, s.setResultAndFlag_advance_frame x _ _⟩
  · rw [s.vf_setResultAndFlag_advance, lowBitFlag_toNat]
  · rw [s.reg_setResultAndFlag_advance _ _ hx, shiftRight_toNat]

/-- Settles O32: twice the shift source is the result and its highest bit the flag. -/
theorem shiftLeftRule : Obligations.ShiftLeftRule := by
  refine ⟨decode_shl, fun s x y => ?_⟩
  rw [← s.shiftSource_eq x y]
  refine ⟨_, exec_shl x y s, ?_, fun hx => ?_, s.setResultAndFlag_advance_frame x _ _⟩
  · rw [s.vf_setResultAndFlag_advance, highBitFlag_toNat]
  · rw [s.reg_setResultAndFlag_advance _ _ hx, shiftLeft_toNat]

end

section
/-! PROOFS. Index register and memory (42_memory_index.md): ADDA, BCD, STM, LDM, and STM followed by LDM. -/

namespace Sys2Proof.Machine

/-! ### Consecutive stores, then the next instruction (R73, R114, R115) -/

section
variable (s : State) (a : Nat) (bs : List Byte)

/-- Consecutive stores own the memory alone (R37). -/
theorem State.putBytes_onlyWrites : OnlyWrites [.memory] s (s.putBytes a bs) := by
  rw [s.putBytes_eq a bs]
  intro p hp
  cases p with
  | memory => simp at hp
  | regs | keys => exact fun _ => rfl
  | stack | run | fault | random => exact ⟨rfl, rfl⟩
  | _ => rfl

/-- Consecutive stores and a new PC own the memory and PC alone (R37). -/
theorem State.putBytes_advance_onlyWrites : OnlyWrites [.memory, .pc] s (s.putBytes a bs).advance :=
  ((s.putBytes_onlyWrites a bs).mono (by simp)).trans ((State.setPc_onlyWrites_pc _ _).mono (by simp))

/-- The byte stored at offset `j`. -/
theorem State.byteAt_putBytes_offset (hwf : Memory.wf s.config s.mem = true) (hfit : a + bs.length ≤ 4096) {j : Nat}
    (hj : j < bs.length) : (s.putBytes a bs).byteAt (a + j) = bs[j] := by
  rw [s.byteAt_putBytes hwf a bs (.inr hfit), if_pos (Nat.le_add_right a j), Nat.add_sub_cancel_left,
    List.getElem?_eq_getElem hj, Option.getD_some]

/-- Consecutive stores leave the bytes around them. -/
theorem State.putBytes_otherBytes (hwf : Memory.wf s.config s.mem = true) (hfit : a + bs.length ≤ 4096) :
    OtherBytes a bs.length s (s.putBytes a bs) := by
  intro k hk
  rw [s.byteAt_putBytes hwf a bs (.inr hfit)]
  split
  · rw [List.getElem?_eq_none (by omega), Option.getD_none]
  · rfl

/-- A store that does not fit is the fault with the lowest address that does not exist (R42, R58). -/
theorem State.writeBytes_outside (hne : bs ≠ []) (hout : 4096 < a + bs.length) :
    s.writeBytes a bs = .error (outOfBounds (max a 4096)) := by
  rw [s.writeBytes_eq, if_neg]
  rintro (hnil | hfit)
  · exact hne hnil
  · omega

end

/-! ### Consecutive loads (R116, R132) -/

/-- The `n` bytes from `a` up. -/
def State.bytesFrom (s : State) (a n : Nat) : List Byte := (List.range n).map fun j => s.byteAt (a + j)

@[simp] theorem State.length_bytesFrom (s : State) (a n : Nat) : (s.bytesFrom a n).length = n := by
  simp [State.bytesFrom]

theorem State.getElem_bytesFrom (s : State) (a n : Nat) {j : Nat} (hj : j < (s.bytesFrom a n).length) :
    (s.bytesFrom a n)[j] = s.byteAt (a + j) := by
  simp [State.bytesFrom]

/-- A read of bytes that exist, or of none (R42, R58). -/
theorem State.readBytes_inside (s : State) (a n : Nat) (h : n = 0 ∨ a + n ≤ 4096) :
    s.readBytes a n = .ok (s.bytesFrom a n) := by
  rw [s.readBytes_eq, if_pos h, State.bytesFrom]

/-- A read that does not fit is the fault with the lowest address that does not exist (R42, R58). -/
theorem State.readBytes_outside (s : State) (a n : Nat) (hn : n ≠ 0) (hout : 4096 < a + n) :
    s.readBytes a n = .error (outOfBounds (max a 4096)) := by
  rw [s.readBytes_eq, if_neg]
  rintro (hzero | hfit)
  · exact hn hzero
  · omega

/-- Register loads and a new PC own the registers and PC alone (R37). -/
theorem State.setRegsFrom_advance_onlyWrites (s : State) (j : Nat) (bs : List Byte) :
    OnlyWrites [.regs, .pc] s (s.setRegsFrom j bs).advance := by
  rw [s.setRegsFrom_eq j bs]
  intro p hp
  cases p with
  | regs | pc => simp at hp
  | memory | keys => exact fun _ => rfl
  | stack | run | fault | random => exact ⟨rfl, rfl⟩
  | _ => rfl

/-- The register loaded at offset `j` (R116). -/
theorem State.reg_setRegsFrom_offset (s : State) (bs : List Byte) (h : bs.length ≤ 16) (j : Reg) (hj : j.val < bs.length) :
    (s.setRegsFrom 0 bs).advance.reg j = bs[j.val] := by
  rw [State.reg_advance, s.reg_setRegsFrom 0 bs (by omega), if_pos (Nat.zero_le _), Nat.sub_zero,
    List.getElem?_eq_getElem hj, Option.getD_some]

/-- The registers past the loaded bytes stay (R116). -/
theorem State.reg_setRegsFrom_past (s : State) (bs : List Byte) (h : bs.length ≤ 16) (j : Reg) (hj : bs.length ≤ j.val) :
    (s.setRegsFrom 0 bs).advance.reg j = s.reg j := by
  rw [State.reg_advance, s.reg_setRegsFrom 0 bs (by omega), if_pos (Nat.zero_le _), Nat.sub_zero,
    List.getElem?_eq_none hj, Option.getD_none]

/-! ### The arms of `exec` (R112, R114 to R116) -/

theorem exec_adda (x : Reg) (s : State) :
    exec (.adda x) s = .next (s.setIndex (s.i + zextByte (s.reg x))).advance := rfl

/-- An FX33 whose digits do not fit (R114). -/
theorem exec_bcd_outside (s : State) (x : Reg) (hout : 4096 < s.dataAddress + 3) :
    exec (.bcd x) s = .next (s.raise (outOfBounds (max s.dataAddress 4096))) := by
  simp only [exec, execBcd, s.writeBytes_outside s.dataAddress (bcdDigits (s.reg x)) (List.cons_ne_nil _ _) hout,
    State.settle_error]

/-- An FX55 whose registers do not fit (R115). -/
theorem exec_stm_outside (s : State) (x : Reg) (hout : 4096 < s.dataAddress + (s.regsUpTo x).length) :
    exec (.stm x) s = .next (s.raise (outOfBounds (max s.dataAddress 4096))) := by
  have hne : s.regsUpTo x ≠ [] := by
    rw [← List.length_pos_iff, s.length_regsUpTo]
    exact Nat.succ_pos _
  simp only [exec, execStm, s.writeBytes_outside _ _ hne hout, State.settle_error]

/-- An FX65 whose bytes exist (R116). -/
theorem exec_ldm_of_fits (s : State) (x : Reg) (hfit : s.dataAddress + (x.val + 1) ≤ 4096) :
    exec (.ldm x) s = .next (s.setRegsFrom 0 (s.bytesFrom s.dataAddress (x.val + 1))).advance := by
  simp only [exec, execLdm, s.readBytes_inside _ _ (.inr hfit), State.settle_ok]

/-- An FX65 whose bytes do not all exist (R116). -/
theorem exec_ldm_outside (s : State) (x : Reg) (hout : 4096 < s.dataAddress + (x.val + 1)) :
    exec (.ldm x) s = .next (s.raise (outOfBounds (max s.dataAddress 4096))) := by
  simp only [exec, execLdm, s.readBytes_outside _ _ (Nat.succ_ne_zero _) hout, State.settle_error]

/-- The address an out-of-bounds data access reports fits `fault_info` (R33, R110). -/
theorem State.dataAddress_max_lt (s : State) : max s.dataAddress 4096 < 65536 := by
  have hi : s.dataAddress < 65536 := s.i.isLt
  omega

/-! ### The decimal digits (R114) -/

theorem bcdDigits_hundreds (b : Byte) : ((bcdDigits b)[0]'(by simp [bcdDigits])).toNat = b.toNat / 100 := by
  have hb := b.isLt
  exact Nat.mod_eq_of_lt (by omega)

theorem bcdDigits_tens (b : Byte) : ((bcdDigits b)[1]'(by simp [bcdDigits])).toNat = b.toNat / 10 % 10 :=
  Nat.mod_eq_of_lt (by omega)

theorem bcdDigits_ones (b : Byte) : ((bcdDigits b)[2]'(by simp [bcdDigits])).toNat = b.toNat % 10 :=
  Nat.mod_eq_of_lt (by omega)

/-! ### What STM and LDM leave -/

/-- STM completes with register `j` at offset `j` (R115). -/
theorem completes_stm (s : State) (x : Reg) (hwf : Memory.wf s.config s.mem = true) (hfit : s.i.toNat + x.val ≤ 4095) :
    Completes (exec (.stm x) s) fun t =>
      (∀ j : Reg, j ≤ x → t.byteAt (s.dataAddress + j.val) = s.reg j) ∧
      OtherBytes s.dataAddress (x.val + 1) s t ∧ t.pc = s.pc + 2 ∧ OnlyWrites [.memory, .pc] s t := by
  have hlen := s.length_regsUpTo x
  have hfit' : s.dataAddress + (s.regsUpTo x).length ≤ 4096 := by
    rw [hlen, State.dataAddress]
    omega
  refine ⟨_, exec_stm_of_fits s x hfit', fun j hj => ?_, ?_, ?_, s.putBytes_advance_onlyWrites _ _⟩
  · have hjlen : j.val < (s.regsUpTo x).length := by
      rw [hlen]
      exact Nat.lt_succ_of_le hj
    rw [State.byteAt_advance, s.byteAt_putBytes_offset _ _ hwf hfit' hjlen, s.getElem_regsUpTo x j.val hjlen,
      Fin.ofNat_val_eq_self]
  · rw [← hlen]
    exact s.putBytes_otherBytes _ _ hwf hfit'
  · rw [State.pc_advance, s.putBytes_eq]

/-- LDM completes with byte `j` in register `j` (R116). -/
theorem completes_ldm (s : State) (x : Reg) (hfit : s.i.toNat + x.val ≤ 4095) :
    Completes (exec (.ldm x) s) fun t =>
      (∀ j : Reg, j ≤ x → t.reg j = s.byteAt (s.dataAddress + j.val)) ∧
      (∀ j : Reg, ¬ j ≤ x → t.reg j = s.reg j) ∧ t.pc = s.pc + 2 ∧ OnlyWrites [.regs, .pc] s t := by
  have hfit' : s.dataAddress + (x.val + 1) ≤ 4096 := by
    rw [State.dataAddress]
    omega
  have hlen := s.length_bytesFrom s.dataAddress (x.val + 1)
  have hlen16 : (s.bytesFrom s.dataAddress (x.val + 1)).length ≤ 16 := hlen.trans_le x.isLt
  refine ⟨_, exec_ldm_of_fits s x hfit', fun j hj => ?_, fun j hj => ?_, ?_, s.setRegsFrom_advance_onlyWrites _ _⟩
  · rw [s.reg_setRegsFrom_offset _ hlen16 j ((Nat.lt_succ_of_le hj).trans_eq hlen.symm), s.getElem_bytesFrom]
  · exact s.reg_setRegsFrom_past _ hlen16 j (hlen.trans_le (not_le.mp hj))
  · rw [State.pc_advance, s.setRegsFrom_eq]

end Sys2Proof.Machine

open Sys2Proof Sys2Proof.Machine

/-- Settles O36: ADDA writes the 16-bit sum to I and steps PC. -/
theorem addToIndexRule : Obligations.AddToIndexRule := by
  refine ⟨decode_adda, fun s x => ⟨_, exec_adda x s, ?_, s.setIndex_advance_frame _⟩⟩
  have hbyte : (zextByte (s.reg x)).toNat = (s.reg x).toNat := BitVec.toNat_setWidth_of_le (by decide)
  rw [State.i_advance, State.i_setIndex, BitVec.toNat_add, hbyte]

/-- Settles O38: BCD is three consecutive stores and a new PC, or the fault of a store that does not fit. -/
theorem decimalDigitsRule : Obligations.DecimalDigitsRule := by
  refine ⟨decode_bcd, fun s x => ⟨rfl, fun hwf hin => ?_, fun hout => ?_⟩⟩
  · have hfit : s.dataAddress + (bcdDigits (s.reg x)).length ≤ 4096 := Nat.add_le_add_right hin 3
    have hbyte {j : Nat} (hj : j < 3) := s.byteAt_putBytes_offset s.dataAddress (bcdDigits (s.reg x)) hwf hfit hj
    refine ⟨_, exec_bcd_of_fits s x hfit, ?_, ?_, ?_, s.putBytes_otherBytes _ _ hwf hfit, ?_,
      s.putBytes_advance_onlyWrites _ _⟩
    · exact (congrArg BitVec.toNat (hbyte (by decide : 0 < 3))).trans (bcdDigits_hundreds _)
    · exact (congrArg BitVec.toNat (hbyte (by decide : 1 < 3))).trans (bcdDigits_tens _)
    · exact (congrArg BitVec.toNat (hbyte (by decide : 2 < 3))).trans (bcdDigits_ones _)
    · rw [State.pc_advance, s.putBytes_eq]
  · exact raises_outOfBounds s.dataAddress_max_lt (exec_bcd_outside s x (Nat.add_lt_add_right hout 3))

/-- Settles O39: STM is consecutive stores and a new PC, or the fault of a store that does not fit. -/
theorem storeRegistersRule : Obligations.StoreRegistersRule := by
  refine ⟨decode_stm, fun s x => ⟨rfl, completes_stm s x, fun hout => ?_⟩⟩
  refine raises_outOfBounds s.dataAddress_max_lt (exec_stm_outside s x ?_)
  rw [s.length_regsUpTo, State.dataAddress]
  omega

/-- Settles O40: LDM is consecutive register loads and a new PC, or the fault of a read that does not fit. -/
theorem loadRegistersRule : Obligations.LoadRegistersRule := by
  refine ⟨decode_ldm, fun s x => ⟨rfl, completes_ldm s x, fun hout => ?_⟩⟩
  refine raises_outOfBounds s.dataAddress_max_lt (exec_ldm_outside s x ?_)
  rw [State.dataAddress]
  omega

/-- Settles O41: between the two neither I nor memory changes, so LDM loads what STM stored. -/
theorem storeThenLoadRoundTrip : Obligations.StoreThenLoadRoundTrip := by
  intro s t u x hwf hfit hstore hbetween
  obtain ⟨t', hstore', hstored, -, -, hframe⟩ := completes_stm s x hwf hfit
  obtain rfl := Host.Outcome.next.inj (hstore.symm.trans hstore')
  have hindex : u.i = s.i := (hbetween .index (by simp)).trans (hframe .index (by simp))
  have hmemory : ∀ a, u.byteAt a = t.byteAt a := hbetween .memory (by simp)
  obtain ⟨w, hload, hloaded, -⟩ := completes_ldm u x (hindex ▸ hfit)
  refine ⟨w, hload, fun j hj => ?_⟩
  rw [hloaded j hj, hmemory, ← hstored j hj, State.dataAddress, State.dataAddress, hindex]

end

section
/-! PROOFS. Timers and keys (43_timer_input.md, 60_exceptions.md): the timer instructions and `Tick`, the key skips, WKEY and
`KeyEvent`. -/

namespace Sys2Proof.Machine

/-! ### The timers (R27, R28, R150) -/

/-- Writing DT and stepping PC owns DT and PC alone (R37). -/
theorem State.setDelay_advance_onlyWrites (s : State) (b : Byte) : OnlyWrites [.delay, .pc] s (s.setDelay b).advance := by
  intro p hp
  cases p with
  | delay | pc => simp at hp
  | _ => simp [Piece.unchanged]

/-- Writing ST and stepping PC owns ST and PC alone (R37). -/
theorem State.setSound_advance_onlyWrites (s : State) (b : Byte) : OnlyWrites [.sound, .pc] s (s.setSound b).advance := by
  intro p hp
  cases p with
  | sound | pc => simp at hp
  | _ => simp [Piece.unchanged]

theorem exec_lddt (x : Reg) (s : State) : exec (.lddt x) s = .next (s.setReg x s.dt).advance := rfl

theorem exec_stdt (x : Reg) (s : State) : exec (.stdt x) s = .next (s.setDelay (s.reg x)).advance := rfl

theorem exec_stst (x : Reg) (s : State) : exec (.stst x) s = .next (s.setSound (s.reg x)).advance := rfl

/-- The same state with other timers. -/
def State.withTimers (s : State) (d b : Byte) : State := (s.setDelay d).setSound b

theorem State.withTimers_onlyWrites (s : State) (d b : Byte) : OnlyWrites [.delay, .sound] s (s.withTimers d b) := by
  intro p hp
  cases p with
  | delay | sound => simp at hp
  | _ => simp [Piece.unchanged, State.withTimers]

/-- One decrement, held at 0 (R150). -/
theorem countDown_toNat (b : Byte) : (countDown b).toNat = b.toNat - 1 := by
  unfold countDown
  split
  · simp [*]
  · bv_omega

/-- A `Tick` in IDLE, RUN or WAIT_KEY (R150). -/
theorem State.opTick_of_active (s : State) (h : s.runState ∈ [RunState.idle, .run, .waitKey]) :
    s.opTick = s.withTimers (countDown s.dt) (countDown s.st) := by
  unfold State.opTick
  split
  case h_4 hs | h_5 hs => simp [hs] at h
  all_goals rfl

/-- A `Tick` in HALTED or FAULTED (R150). -/
theorem State.opTick_of_stopped (s : State) (h : s.runState ∈ [RunState.halted, .faulted]) : s.opTick = s := by
  unfold State.opTick
  split
  case h_1 hs | h_2 hs | h_3 hs => simp [hs] at h
  all_goals rfl

theorem performAll_ticks_succ (s : State) (n : Nat) :
    performAll (List.replicate (n + 1) .tick) s = performAll (List.replicate n .tick) s.opTick := rfl

theorem completes_ticks (n : Nat) (s : State) (h : s.runState ∈ [RunState.idle, .run, .waitKey]) :
    Completes (performAll (List.replicate n .tick) s) fun t =>
      t.dt.toNat = s.dt.toNat - n ∧ t.st.toNat = s.st.toNat - n ∧ OnlyWrites [.delay, .sound] s t := by
  induction n generalizing s with
  | zero => exact ⟨s, rfl, rfl, rfl, OnlyWrites.refl _ s⟩
  | succ n ih =>
    rw [performAll_ticks_succ, s.opTick_of_active h]
    obtain ⟨t, hrun, hdt, hst, hframe⟩ := ih (s.withTimers (countDown s.dt) (countDown s.st)) h
    refine ⟨t, hrun, ?_, ?_, (s.withTimers_onlyWrites _ _).trans hframe⟩
    · have hone : (s.withTimers (countDown s.dt) (countDown s.st)).dt.toNat = s.dt.toNat - 1 := countDown_toNat s.dt
      omega
    · have hone : (s.withTimers (countDown s.dt) (countDown s.st)).st.toNat = s.st.toNat - 1 := countDown_toNat s.st
      omega

theorem performAll_ticks_stopped (n : Nat) (s : State) (h : s.runState ∈ [RunState.halted, .faulted]) :
    performAll (List.replicate n .tick) s = .next s := by
  induction n with
  | zero => rfl
  | succ n ih => rw [performAll_ticks_succ, s.opTick_of_stopped h, ih]

/-! ### The keys (R34, R120, R153) -/

theorem exec_skp (x : Reg) (s : State) : exec (.skp x) s = .next (s.skipIf (s.key (s.keyNumber x))) := rfl

theorem exec_sknp (x : Reg) (s : State) : exec (.sknp x) s = .next (s.skipIf (!s.key (s.keyNumber x))) := rfl

theorem exec_wkey (x : Reg) (s : State) : exec (.wkey x) s = .next (s.suspend x) := rfl

/-- The key a skip tests is the low nibble of its register (R120). -/
theorem State.keyNumber_eq (s : State) (x : Reg) (k : Key) (hk : k.val = (s.reg x).toNat % 16) : s.keyNumber x = k :=
  Fin.ext hk.symm

/-- Suspending owns `run_state` and `wait_reg` alone (R37, R122). -/
theorem State.suspend_onlyWrites (s : State) (x : Reg) : OnlyWrites [.run] s (s.suspend x) := by
  intro p hp
  cases p with
  | run => simp at hp
  | _ => simp [Piece.unchanged]

/-- The state a resuming press of key `k` leaves (R122, R154). -/
def State.resumed (s : State) (k : Key) : State := (s.setKey k true).resume k

section
variable (s : State) (k : Key)

theorem State.reg_resumed (y : Reg) : (s.resumed k).reg y = if y = s.waitReg then BitVec.ofNat 8 k.val else s.reg y := by
  simp only [State.resumed, State.resume, State.reg_setRun, State.reg_advance, State.reg_setReg, State.waitReg_setKey,
    State.reg_setKey]

theorem State.reg_waitReg_resumed : ((s.resumed k).reg s.waitReg).toNat = k.val := by
  have hk := k.isLt
  rw [s.reg_resumed, if_pos rfl, BitVec.toNat_ofNat, Nat.mod_eq_of_lt (by omega)]

theorem State.resumed_otherRegs : OtherRegs [s.waitReg] s (s.resumed k) := by
  intro y hy
  rw [s.reg_resumed, if_neg (by simpa using hy)]

theorem State.key_resumed (j : Key) : (s.resumed k).key j = if j = k then true else s.key j :=
  s.key_setKey k true j

theorem State.resumed_onlyWrites : OnlyWrites [.keys, .regs, .pc, .run] s (s.resumed k) := by
  intro p hp
  cases p with
  | keys | regs | pc | run => simp at hp
  | _ => simp [Piece.unchanged, State.resumed, State.resume]

/-- A new press in WAIT_KEY resumes the suspended FX0A (R154). -/
theorem State.opKeyEvent_of_newPress (hwait : s.runState = .waitKey) (hreleased : s.key k = false) :
    s.opKeyEvent k true = s.resumed k := by
  simp [State.opKeyEvent, hwait, State.isNewPress, hreleased, State.resumed]

/-- Every other key event sets the level and nothing else (R153). -/
theorem State.opKeyEvent_of_not_newPress (pressed : Bool)
    (h : ¬ (s.runState = .waitKey ∧ pressed = true ∧ s.key k = false)) : s.opKeyEvent k pressed = s.setKey k pressed := by
  unfold State.opKeyEvent
  split
  · rename_i hwait
    rw [if_neg]
    simpa [State.isNewPress, hwait] using h
  all_goals rfl

end

end Sys2Proof.Machine

open Sys2Proof Sys2Proof.Machine

/-- Settles O42: LDDT writes a register, STDT and STST a timer, and each steps PC. -/
theorem timerInstructionsRule : Obligations.TimerInstructionsRule :=
  ⟨decode_lddt, decode_stdt, decode_stst, fun s x =>
    ⟨⟨_, exec_lddt x s, s.reg_setReg_advance_self x _, s.setReg_advance_frame x _⟩,
     ⟨_, exec_stdt x s, rfl, rfl, s.setDelay_advance_onlyWrites _⟩,
     ⟨_, exec_stst x s, rfl, rfl, s.setSound_advance_onlyWrites _⟩⟩⟩

/-- Settles O43: both are the conditional skip, on the level and on its negation. -/
theorem keySkipRule : Obligations.KeySkipRule := by
  refine ⟨decode_skp, decode_sknp, fun s x k hk => ⟨?_, ?_⟩⟩
  · rw [exec_skp, s.keyNumber_eq x k hk]
    exact completes_skipIf s rfl
  · rw [exec_sknp, s.keyNumber_eq x k hk]
    exact completes_skipIf s (by cases s.key k <;> rfl)

/-- Settles O44: WKEY suspends, the driver's step does nothing then, and a new press resumes with V[X]. -/
theorem keyWaitRule : Obligations.KeyWaitRule := by
  refine ⟨decode_wkey, fun s x => ⟨s.suspend x, exec_wkey x s, rfl, rfl, s.suspend_onlyWrites x,
    driverStep_of_not_run (s := s.suspend x) (by simp), fun k hk => ?_⟩⟩
  have hresume : perform (.keyEvent k true) (s.suspend x) = .next ((s.suspend x).resumed k) :=
    congrArg Host.Outcome.next ((s.suspend x).opKeyEvent_of_newPress k rfl hk)
  refine ⟨_, hresume, (s.suspend x).reg_waitReg_resumed k, (s.suspend x).resumed_otherRegs k, rfl, rfl, rfl, ?_,
    fun j hj => ?_, ?_⟩
  · rw [State.key_resumed, if_pos rfl]
  · rw [State.key_resumed, if_neg hj, State.key_suspend]
  · exact ((s.suspend_onlyWrites x).mono (by simp)).trans (((s.suspend x).resumed_onlyWrites k).mono (by simp))

/-- Settles O45: ticks by induction on their number. -/
theorem ticksCountDown : Obligations.TicksCountDown :=
  fun s n => ⟨completes_ticks n s, performAll_ticks_stopped n s⟩

/-- Settles O46: the resuming press, and every other event. -/
theorem keyEventRule : Obligations.KeyEventRule := by
  intro s k pressed
  by_cases hpress : s.runState = .waitKey ∧ pressed = true ∧ s.key k = false
  · obtain ⟨hwait, rfl, hreleased⟩ := hpress
    refine ⟨s.resumed k, congrArg Host.Outcome.next (s.opKeyEvent_of_newPress k hwait hreleased), ?_, fun j hj => ?_, ?_⟩
    · rw [s.key_resumed, if_pos rfl]
    · rw [s.key_resumed, if_neg hj]
    · rw [if_pos ⟨hwait, rfl, hreleased⟩]
      exact ⟨s.reg_waitReg_resumed k, s.resumed_otherRegs k, rfl, rfl, rfl, s.resumed_onlyWrites k⟩
  · refine ⟨s.setKey k pressed, congrArg Host.Outcome.next (s.opKeyEvent_of_not_newPress k pressed hpress), ?_,
      fun j hj => ?_, ?_⟩
    · rw [s.key_setKey, if_pos rfl]
    · rw [s.key_setKey, if_neg hj]
    · rw [if_neg hpress]
      exact s.setKey_onlyWrites_keys k pressed

end

section
/-! PROOFS. Sprites (44_display.md): which pixels DRW inverts and when it collides, and that a second draw undoes the first;
the display output and the fault codes. -/

namespace Sys2Proof.Machine

/-! ### The pixels of a sprite (R130) -/

/-- `spriteCovers` says of a pixel that the drawing loop toggles it. -/
theorem spriteCovers_iff (s : State) (x y : Reg) (n : Nat) (py : Fin 32) (px : Fin 64) :
    spriteCovers s x y n py px = true ↔
      (py, px) ∈ spritePoints (s.reg x).toNat (s.reg y).toNat 0 (s.bytesFrom s.dataAddress n) := by
  simp only [spriteCovers, mem_spritePoints, List.any_eq_true, List.mem_range, Bool.and_eq_true, beq_iff_eq,
    s.getElem_bytesFrom, s.length_bytesFrom, exists_prop, Fin.ext_iff, wrapRow, wrapColumn, Fin.ofNat, Nat.zero_add,
    and_assoc]

theorem spriteCovers_eq (s : State) (x y : Reg) (n : Nat) (py : Fin 32) (px : Fin 64) :
    spriteCovers s x y n py px =
      decide ((py, px) ∈ spritePoints (s.reg x).toNat (s.reg y).toNat 0 (s.bytesFrom s.dataAddress n)) := by
  rw [Bool.eq_iff_iff, decide_eq_true_iff, spriteCovers_iff]

/-- What covers a pixel depends on the coordinates, I and the bytes alone. -/
theorem spriteCovers_congr {s t : State} {x y : Reg} (n : Nat) (hx : t.reg x = s.reg x) (hy : t.reg y = s.reg y)
    (hindex : t.i = s.i) (hmemory : ∀ a, t.byteAt a = s.byteAt a) (py : Fin 32) (px : Fin 64) :
    spriteCovers t x y n py px = spriteCovers s x y n py px := by
  simp only [spriteCovers, State.dataAddress, hx, hy, hindex, hmemory]

/-! ### The arm of `exec` (R132) -/

/-- A DRW whose rows exist, or that has none (R132; D36). -/
theorem exec_drw_of_fits (s : State) (x y : Reg) (n : Nibble) (h : n.toNat = 0 ∨ s.dataAddress + n.toNat ≤ 4096) :
    exec (.drw x y n) s =
      .next (s.showCanvas (s.drawSprite x y (s.bytesFrom s.dataAddress n.toNat))).advance := by
  simp only [exec, execDrw, s.readBytes_inside _ _ h, State.settle_ok]

/-- A DRW whose rows do not all exist (R132). -/
theorem exec_drw_outside (s : State) (x y : Reg) (n : Nibble) (hn : n.toNat ≠ 0) (hout : 4096 < s.dataAddress + n.toNat) :
    exec (.drw x y n) s = .next (s.raise (outOfBounds (max s.dataAddress 4096))) := by
  simp only [exec, execDrw, s.readBytes_outside _ _ hn hout, State.settle_error]

/-- Showing a canvas writes VF and no other register (R132). -/
theorem State.showCanvas_advance_otherRegs (s : State) (cv : Canvas) : OtherRegs [vf] s (s.showCanvas cv).advance := by
  intro y hy
  rw [State.reg_advance, State.showCanvas, State.reg_setReg, if_neg (by simpa using hy), State.reg_setDisplay]

/-- Showing a canvas and stepping PC owns the display, the registers and PC alone (R37). -/
theorem State.showCanvas_advance_onlyWrites (s : State) (cv : Canvas) :
    OnlyWrites [.display, .regs, .pc] s (s.showCanvas cv).advance := by
  intro p hp
  cases p with
  | display | regs | pc => simp at hp
  | _ => simp [Piece.unchanged, State.showCanvas]

/-- VF is the collision (R132, R133). -/
theorem State.vf_showCanvas_advance (s : State) (cv : Canvas) : (s.showCanvas cv).advance.reg vf = flagByte cv.collision := by
  rw [State.reg_advance, State.showCanvas, State.reg_setReg, if_pos rfl]

/-- DRW completes with the covered pixels inverted and VF the collision (R132). -/
theorem completes_drw (s : State) (x y : Reg) (n : Nibble) (h : n = 0 ∨ s.i.toNat + n.toNat ≤ 4096) :
    Completes (exec (.drw x y n) s) fun t =>
      (∀ py px, t.fb.pixel py px = (s.fb.pixel py px != spriteCovers s x y n.toNat py px)) ∧
      (t.reg vf = 1 ↔ ∃ py px, s.fb.pixel py px = true ∧ spriteCovers s x y n.toNat py px = true) ∧
      (t.reg vf = 0 ∨ t.reg vf = 1) ∧ OtherRegs [vf] s t ∧ t.pc = s.pc + 2 ∧
      OnlyWrites [.display, .regs, .pc] s t := by
  have hrows : (s.bytesFrom s.dataAddress n.toNat).length ≤ 32 := by
    have hn := n.isLt
    rw [s.length_bytesFrom]
    omega
  refine ⟨_, exec_drw_of_fits s x y n (h.imp_left (congrArg BitVec.toNat)), fun py px => ?_, ?_, ?_,
    s.showCanvas_advance_otherRegs _, rfl, s.showCanvas_advance_onlyWrites _⟩
  · refine (s.pixel_drawSprite x y _ hrows py px).trans ?_
    rw [spriteCovers_eq, Bool.bne_eq_xor]
  · rw [s.vf_showCanvas_advance, flagByte_eq_one_iff, s.collision_drawSprite x y _ hrows]
    simp only [spriteCovers_iff, and_comm]
  · rw [s.vf_showCanvas_advance]
    exact flagByte_zero_or_one _

/-! ### The outputs (R33, R160) -/

/-- Bit `64*y + x` of the display port (R160; D30). -/
theorem State.getElem_displayPort (s : State) (y : Fin 32) (x : Fin 64) :
    s.displayPort[64 * y.val + x.val] = s.fb.pixel y x := by
  have hrow : Fin.ofNat 32 ((64 * y.val + x.val) / 64) = y := by
    refine Fin.ext ?_
    simp only [Fin.ofNat]
    omega
  have hcolumn : Fin.ofNat 64 (64 * y.val + x.val) = x := by
    refine Fin.ext ?_
    simp only [Fin.ofNat]
    omega
  simp only [State.displayPort, Vector.getElem_ofFn, hrow, hcolumn]

/-- The fault codes are 0 to 5 (R33, R140; D15). -/
theorem faultCode_toNat_le (k : Option Fault) : (faultCode k).toNat ≤ 5 := by
  cases k with
  | none => decide
  | some kind => cases kind <;> decide

end Sys2Proof.Machine

open Sys2Proof Sys2Proof.Machine

/-- Settles O48: DRW is its canvas shown and a new PC, or the fault of a row that does not exist. -/
theorem drawSpriteRule : Obligations.DrawSpriteRule := by
  refine ⟨decode_familyD, fun s x y n => ⟨rfl, completes_drw s x y n, fun hn hout => ?_⟩⟩
  have hrows : n.toNat ≠ 0 := fun hzero => hn (BitVec.eq_of_toNat_eq hzero)
  exact raises_outOfBounds s.dataAddress_max_lt (exec_drw_outside s x y n hrows hout)

/-- Settles O49: the second draw covers the same pixels, so it inverts them back and meets those the first one set. -/
theorem drawingTwiceRestores : Obligations.DrawingTwiceRestores := by
  intro s x y n hx hy hfit
  obtain ⟨t, hfirst, hpixel, hflag, hbit, hregs, -, hframe⟩ := completes_drw s x y n hfit
  have hindex : t.i = s.i := hframe .index (by simp)
  have hmemory : ∀ a, t.byteAt a = s.byteAt a := hframe .memory (by simp)
  have hcovers := spriteCovers_congr n.toNat (hregs x (by simpa using hx)) (hregs y (by simpa using hy)) hindex hmemory
  obtain ⟨u, hsecond, hpixel', hflag', -⟩ := completes_drw t x y n (hindex ▸ hfit)
  refine ⟨t, hfirst, u, hsecond, Framebuffer.ext_pixel _ _ fun py px => ?_, fun hclear hsprite => ⟨?_, ?_⟩⟩
  · rw [hpixel', hpixel, hcovers, Bool.bne_assoc, bne_self_eq_false, Bool.bne_false]
  · refine hbit.resolve_right fun hone => ?_
    obtain ⟨py, px, hset, -⟩ := hflag.mp hone
    exact Bool.false_ne_true ((hclear py px).symm.trans hset)
  · obtain ⟨py, px, hpx⟩ := hsprite
    refine hflag'.mpr ⟨py, px, ?_, (hcovers py px).trans hpx⟩
    rw [hpixel, hclear, hpx]
    rfl

/-- Settles O50: the display port bit by bit, and the codes. -/
theorem outputEncodings : Obligations.OutputEncodings :=
  ⟨State.getElem_displayPort, rfl, rfl, rfl, rfl, rfl, rfl, faultCode_toNat_le⟩

end

section
/-! PROOFS. Host operations: `Load` (R56), `Halt` (R156), `Reset` (R170) and the state after reset. -/

namespace Sys2Proof.Machine

/-- Setting `run_state` owns it alone (R37). -/
theorem State.setRun_onlyWrites (s : State) (r : RunState) : OnlyWrites [.run] s (s.setRun r) := by
  intro p hp
  cases p with
  | run => simp at hp
  | _ => simp [Piece.unchanged]

/-! ### Load (R56) -/

/-- A loaded image owns the memory and `run_state` alone (R37). -/
theorem State.load_onlyWrites (s : State) (bytes : List Byte) :
    OnlyWrites [.memory, .run] s ((s.putBytes 512 bytes).setRun .run) :=
  ((s.putBytes_onlyWrites 512 bytes).mono (by simp)).trans ((State.setRun_onlyWrites _ _).mono (by simp))

theorem perform_load_fits (s : State) (bytes : List Byte) (hs : s.runState = .idle) (h : bytes.length ≤ 3584) :
    perform (.load bytes) s = .next ((s.putBytes 512 bytes).setRun .run) :=
  congrArg Host.Outcome.next (s.opLoad_fits bytes hs h)

theorem perform_load_tooLarge (s : State) (bytes : List Byte) (hs : s.runState = .idle) (h : 3584 < bytes.length) :
    perform (.load bytes) s = .next (s.raise ⟨.romTooLarge, 0⟩) :=
  congrArg Host.Outcome.next (s.opLoad_tooLarge bytes hs h)

theorem perform_load_notIdle (s : State) (bytes : List Byte) (hs : s.runState ≠ .idle) :
    perform (.load bytes) s = .next s :=
  congrArg Host.Outcome.next (s.opLoad_notIdle bytes hs)

/-! ### Halt (R156) -/

theorem State.opHalt_of_active (s : State) (h : s.runState ∈ [RunState.idle, .run, .waitKey]) :
    s.opHalt = s.setRun .halted := by
  unfold State.opHalt
  split
  case h_4 hs | h_5 hs => simp [hs] at h
  all_goals rfl

theorem State.opHalt_of_stopped (s : State) (h : s.runState ∈ [RunState.halted, .faulted]) : s.opHalt = s := by
  unfold State.opHalt
  split
  case h_1 hs | h_2 hs | h_3 hs => simp [hs] at h
  all_goals rfl

/-- In HALTED every operation but the reset writes key levels alone (R149; D23). -/
theorem perform_halted_onlyWrites (s t : State) (hs : s.runState = .halted) (op : Operation) (hop : op ≠ .reset)
    (h : perform op s = .next t) : OnlyWrites [.keys] s t := by
  cases op with
  | reset => exact absurd rfl hop
  | keyEvent k pressed =>
    rw [perform, s.opKeyEvent_of_not_newPress k pressed (by simp [hs])] at h
    exact Host.Outcome.next.inj h ▸ s.setKey_onlyWrites_keys k pressed
  | load bytes =>
    rw [perform_load_notIdle s bytes (by simp [hs])] at h
    exact Host.Outcome.next.inj h ▸ OnlyWrites.refl _ s
  | step =>
    rw [perform, driverStep_of_not_run (by simp [hs])] at h
    exact Host.Outcome.next.inj h ▸ OnlyWrites.refl _ s
  | tick =>
    rw [perform, s.opTick_of_stopped (by simp [hs])] at h
    exact Host.Outcome.next.inj h ▸ OnlyWrites.refl _ s
  | halt =>
    rw [perform, s.opHalt_of_stopped (by simp [hs])] at h
    exact Host.Outcome.next.inj h ▸ OnlyWrites.refl _ s

/-! ### Reset (R170) -/

/-- The reset contents inside the font (R31). -/
theorem resetByte_font (c : Config) (d : Fin 80) : resetByte c (c.fontBase.val + d.val) = c.fontData[d.val] := by
  have hin : c.fontBase.val ≤ c.fontBase.val + d.val ∧ c.fontBase.val + d.val < c.fontBase.val + 80 := by omega
  rw [resetByte, if_pos hin, Nat.add_sub_cancel_left, Vector.getElem?_eq_getElem d.isLt, Option.getD_some]

/-- The reset contents outside the font (R30; D4). -/
theorem resetByte_outside (c : Config) (a : Nat) (h : a < c.fontBase.val ∨ c.fontBase.val + 80 ≤ a) : resetByte c a = 0 := by
  rw [resetByte, if_neg (by omega)]

section
variable (c : Config) (keys : Vector Bool 16) (ops : List Operation) (rs : List Byte) (n : Nat)

theorem State.reg_initial (x : Reg) : (State.initial c keys ops rs n).reg x = 0 :=
  Vector.getElem_replicate _

theorem State.stack_initial (j : Fin 16) : (State.initial c keys ops rs n).stack[j.val] = 0 :=
  Vector.getElem_replicate _

theorem State.pixel_initial (y : Fin 32) (x : Fin 64) : (State.initial c keys ops rs n).fb.pixel y x = false :=
  Framebuffer.pixel_clear y x

end

/-- `Reset` keeps what the core does not own (R34, R170; log entry 13). -/
theorem State.opReset_unchanged (s : State) {p : Piece} (hp : p ∈ [Piece.keys, .params, .schedule, .random]) :
    p.unchanged s s.opReset := by
  cases p with
  | keys => exact fun _ => rfl
  | params | schedule => rfl
  | random => exact ⟨rfl, rfl⟩
  | _ => simp at hp

end Sys2Proof.Machine

open Sys2Proof Sys2Proof.Machine

/-- Settles O51: in IDLE consecutive stores at 512 and RUN, or the fault; nothing elsewhere. -/
theorem loadRule : Obligations.LoadRule := by
  refine fun s bytes => ⟨fun hidle hwf hlen => ?_, fun hidle hlen => ?_, perform_load_notIdle s bytes⟩
  · have hfit : 512 + bytes.length ≤ 4096 := by omega
    refine ⟨_, perform_load_fits s bytes hidle hlen, fun j hj => s.byteAt_putBytes_offset 512 bytes hwf hfit hj,
      s.putBytes_otherBytes 512 bytes hwf hfit, rfl, ?_, s.load_onlyWrites bytes⟩
    rw [State.waitReg_setRun, s.putBytes_eq]
  · exact raises_of_eq (perform_load_tooLarge s bytes hidle hlen)

/-- Settles O52: `Halt` by run state, and the operations in HALTED one by one. -/
theorem haltRule : Obligations.HaltRule := by
  refine ⟨fun s hs => ?_, fun s hs => ?_, fun op s t hs hop => perform_halted_onlyWrites s t hs op hop⟩
  · rw [perform, s.opHalt_of_active hs]
    exact ⟨_, rfl, rfl, rfl, s.setRun_onlyWrites .halted⟩
  · rw [perform, s.opHalt_of_stopped hs]

/-- Settles O53: the fields of the initial state, and memory as the parameters give it. -/
theorem resetRule : Obligations.ResetRule := by
  intro s
  exact ⟨s.opReset, rfl, State.reg_initial _ _ _ _ _, rfl, rfl, rfl, State.stack_initial _ _ _ _ _, rfl, rfl,
    State.pixel_initial _ _ _ _ _, resetByte_font s.config, resetByte_outside s.config, rfl, rfl, rfl, rfl,
    fun _ => s.opReset_unchanged⟩

/-- Settles O54: the default parameters, and the reset contents of the twelve addresses worked out. -/
theorem resetStateHasDefaults : Obligations.ResetStateHasDefaults := by
  refine ⟨rfl, rfl, rfl, ?_, ?_, ?_, ?_⟩
  all_goals decide

end

section
/-! PROOFS. What an instruction does, said once: it raises its one fault, or it completes, writes only what R37 lists for it
and keeps what the invariant of the machine asks (R37, R141, R143). -/

namespace Sys2Proof.Machine

/-! ### The two ends of an instruction -/

/-- `fault_info` is what the kind records (R33, R140). -/
def Trap.InfoOk (e : Trap) : Prop :=
  match e.kind with
  | .outOfBoundsMemoryAccess => 4096 ≤ e.info.toNat
  | .invalidOpcode => decode e.info = .invalid
  | .romTooLarge | .stackOverflow | .stackUnderflow => e.info = 0

theorem outOfBounds_infoOk {a : Nat} (h : a < 65536) : (outOfBounds (max a 4096)).InfoOk := by
  change 4096 ≤ (outOfBounds (max a 4096)).info.toNat
  rw [outOfBounds_info_toNat (by omega)]
  omega

/-- What an instruction that completes writes, and what it keeps. -/
structure Completed (i : Instr) (s t : State) : Prop where
  /-- It writes the pieces R37 lists for it. -/
  writes : OnlyWrites (instrWrites i) s t
  /-- It writes the general registers R37 lists for it. -/
  regs : OtherRegs (instrRegs i) s t
  /-- It leaves the fault record (R144). -/
  record : Piece.fault.unchanged s t
  /-- It leaves `run_state` and `wait_reg`, unless it suspends (R122). -/
  run : Piece.run.unchanged s t ∨ ∃ x, i = .wkey x ∧ t = s.suspend x
  /-- It keeps the canonical form of memory (log entry 4). -/
  memory : Memory.wf s.config s.mem = true → Memory.wf t.config t.mem = true
  /-- Fetched within memory, it leaves PC at most 0x10FE (R23). -/
  pc : s.pc.toNat ≤ 4094 → (∀ j : Fin 16, (s.stack[j.val]).toNat ≤ 0x1000) → t.pc.toNat ≤ 0x10FE
  /-- Fetched within memory, it leaves every return address at most 0x1000 (R81). -/
  stack : s.pc.toNat ≤ 4094 → (∀ j : Fin 16, (s.stack[j.val]).toNat ≤ 0x1000) →
    ∀ j : Fin 16, (t.stack[j.val]).toNat ≤ 0x1000

/-- The instruction raises the one kind it can raise, or it completes. -/
def RaisesOrCompletes (i : Instr) (s : State) : Prop :=
  (∃ e, exec i s = .next (s.raise e) ∧ instrFault i = some e.kind ∧ e.InfoOk) ∨
  ∃ t, exec i s = .next t ∧ Completed i s t

/-! ### Instructions that step PC -/

/-- The fields an instruction leaves before it steps PC, beside the ones R37 gives it. -/
def State.SameCore (u s : State) : Prop :=
  u.pc = s.pc ∧ u.stack = s.stack ∧ u.mem = s.mem ∧ u.config = s.config ∧ Piece.run.unchanged s u ∧
  Piece.fault.unchanged s u

/-- From a PC that was fetched within memory, `PC + d` does not pass the end of memory by more than `d` (R44). -/
theorem pc_add_toNat_le {pc : Word} (hpc : pc.toNat ≤ 4094) (d : Word) : (pc + d).toNat ≤ 4094 + d.toNat := by
  rw [BitVec.toNat_add]
  exact (Nat.mod_le _ _).trans (Nat.add_le_add_right hpc _)

theorem Completed.of_advance {i : Instr} {s u : State} {ps : List Piece} (hsub : ps ⊆ instrWrites i)
    (hw : OnlyWrites ps s u.advance) (hr : OtherRegs (instrRegs i) s u.advance) (hcore : u.SameCore s) :
    Completed i s u.advance := by
  obtain ⟨hpc, hstack, hmem, hconfig, hrun, hfault⟩ := hcore
  exact {
    writes := hw.mono hsub
    regs := hr
    record := hfault
    run := .inl hrun
    memory := fun hwf => by rwa [State.config_advance, State.mem_advance, hconfig, hmem]
    pc := fun hin _ => by
      rw [State.pc_advance, hpc]
      exact (pc_add_toNat_le hin 2).trans (by decide)
    stack := fun _ hbound => by rwa [State.stack_advance, hstack] }

/-- An operation that does not own the registers leaves them all. -/
theorem OnlyWrites.otherRegs {ps : List Piece} {s t : State} (h : OnlyWrites ps s t) (hps : Piece.regs ∉ ps)
    (xs : List Reg) : OtherRegs xs s t :=
  fun y _ => h .regs hps y

/-- An instruction that steps PC and writes no register. -/
theorem Completed.of_advance_noRegs {i : Instr} {s u : State} {ps : List Piece} (hsub : ps ⊆ instrWrites i)
    (hw : OnlyWrites ps s u.advance) (hps : Piece.regs ∉ ps) (hcore : u.SameCore s) : Completed i s u.advance :=
  .of_advance hsub hw (hw.otherRegs hps _) hcore

section
variable {i : Instr} {s : State}

theorem Completed.setReg {x : Reg} {b : Byte} (hsub : [Piece.regs, .pc] ⊆ instrWrites i) (hx : instrRegs i = [x]) :
    Completed i s (s.setReg x b).advance :=
  .of_advance hsub (s.setReg_advance_onlyWrites x b) (hx ▸ s.setReg_advance_otherRegs x b)
    ⟨rfl, rfl, rfl, rfl, ⟨rfl, rfl⟩, ⟨rfl, rfl⟩⟩

theorem Completed.setResultAndFlag {x : Reg} {r f : Byte} (hsub : [Piece.regs, .pc] ⊆ instrWrites i)
    (hx : instrRegs i = [x, vf]) : Completed i s (s.setResultAndFlag x r f).advance :=
  .of_advance hsub (s.setResultAndFlag_advance_onlyWrites x r f) (hx ▸ s.setResultAndFlag_advance_otherRegs x r f)
    ⟨rfl, rfl, rfl, rfl, ⟨rfl, rfl⟩, ⟨rfl, rfl⟩⟩

theorem Completed.setIndex {w : Word} (hsub : [Piece.index, .pc] ⊆ instrWrites i) :
    Completed i s (s.setIndex w).advance :=
  .of_advance_noRegs hsub (s.setIndex_advance_onlyWrites w) (by decide)
    ⟨rfl, rfl, rfl, rfl, ⟨rfl, rfl⟩, ⟨rfl, rfl⟩⟩

/-- The stores own the memory: within 4096 they keep its canonical form. -/
theorem Completed.putBytes {bs : List Byte} (hsub : [Piece.memory, .pc] ⊆ instrWrites i) (a : Nat)
    (hfit : a + bs.length ≤ 4096) : Completed i s (s.putBytes a bs).advance := by
  have hw := s.putBytes_advance_onlyWrites a bs
  have hmemory := s.putBytes_onlyWrites a bs
  exact {
    writes := hw.mono hsub
    regs := hw.otherRegs (by decide) _
    record := hmemory .fault (by decide)
    run := .inl (hmemory .run (by decide))
    memory := fun hwf => by
      rw [State.config_advance, State.mem_advance, hmemory .params (by decide)]
      exact s.wf_putBytes hwf a bs (.inr hfit)
    pc := fun hin _ => by
      rw [State.pc_advance, hmemory .pc (by decide)]
      exact (pc_add_toNat_le hin 2).trans (by decide)
    stack := fun _ hbound => by rwa [State.stack_advance, (hmemory .stack (by decide)).1] }

/-! ### Instructions that set PC -/

/-- A new PC within the bound of R23. -/
theorem Completed.setPc {w : Word} (hsub : [Piece.pc] ⊆ instrWrites i)
    (hw : s.pc.toNat ≤ 4094 → w.toNat ≤ 0x10FE) : Completed i s (s.setPc w) where
  writes := (s.setPc_onlyWrites_pc w).mono hsub
  regs := (s.setPc_onlyWrites_pc w).otherRegs (by decide) _
  record := ⟨rfl, rfl⟩
  run := .inl ⟨rfl, rfl⟩
  memory := id
  pc := fun hin _ => hw hin
  stack := fun _ hbound => hbound

/-- A conditional skip goes 2 or 4 further (R73). -/
theorem Completed.skipIf {taken : Bool} (hsub : [Piece.pc] ⊆ instrWrites i) : Completed i s (s.skipIf taken) := by
  rw [s.skipIf_eq_setPc]
  refine .setPc hsub fun hin => (pc_add_toNat_le hin _).trans ?_
  cases taken <;> decide

theorem zextAddr_toNat_le_bound (nnn : Addr) : (zextAddr nnn).toNat ≤ 0x10FE :=
  (zextAddr_toNat_le nnn).trans (by decide)

/-- CALL with room: the pushed address is PC + 2 (R83). -/
theorem Completed.call (nnn : Addr) (h : s.sp.val < 16) :
    Completed (.call nnn) s ((s.pushed (s.pc + 2) h).setPc (zextAddr nnn)) where
  writes := (s.call_onlyWrites _ _ h).mono (by simp [instrWrites])
  regs := (s.call_onlyWrites _ _ h).otherRegs (by decide) _
  record := ⟨rfl, rfl⟩
  run := .inl ⟨rfl, rfl⟩
  memory := id
  pc := fun _ _ => zextAddr_toNat_le_bound nnn
  stack := fun hin hbound j => by
    rw [State.stack_setPc]
    by_cases hj : j.val = s.sp.val
    · simp only [hj, s.stack_pushed_self]
      exact pc_add_toNat_le hin 2
    · rw [s.stack_pushed_of_ne _ h j.isLt hj]
      exact hbound j

/-- RET with an address: PC is one of the stacked ones (R81). -/
theorem Completed.ret (h : 0 < s.sp.val) : Completed .ret s ((s.popped h).setPc s.stack[s.sp.val - 1]) where
  writes := (s.ret_onlyWrites _ h).mono (by simp [instrWrites])
  regs := (s.ret_onlyWrites _ h).otherRegs (by decide) _
  record := ⟨rfl, rfl⟩
  run := .inl ⟨rfl, rfl⟩
  memory := id
  pc := fun _ hbound => (hbound ⟨s.sp.val - 1, by omega⟩).trans (by decide)
  stack := fun _ hbound => hbound

/-! ### The rest -/

/-- WKEY suspends (R122). -/
theorem Completed.wkey (x : Reg) : Completed (.wkey x) s (s.suspend x) where
  writes := s.suspend_onlyWrites x
  regs := (s.suspend_onlyWrites x).otherRegs (by decide) _
  record := ⟨rfl, rfl⟩
  run := .inr ⟨x, rfl, rfl⟩
  memory := id
  pc := fun hin _ => hin.trans (by decide)
  stack := fun _ hbound => hbound

/-- The random byte is drawn before the register is written (R102). -/
theorem State.consumeRandom_onlyWrites (s : State) : OnlyWrites [.random] s s.consumeRandom := by
  intro p hp
  cases p with
  | random => simp at hp
  | _ => simp [Piece.unchanged]

theorem State.rnd_onlyWrites (s : State) (x : Reg) (b : Byte) :
    OnlyWrites [.regs, .pc, .random] s (s.consumeRandom.setReg x b).advance :=
  (s.consumeRandom_onlyWrites.mono (by simp)).trans ((s.consumeRandom.setReg_advance_onlyWrites x b).mono (by simp))

theorem exec_rnd (x : Reg) (nn : Byte) (s : State) :
    exec (.rnd x nn) s = .next (s.consumeRandom.setReg x (s.nextRandom &&& nn)).advance := rfl

theorem Completed.rnd (x : Reg) (nn b : Byte) : Completed (.rnd x nn) s (s.consumeRandom.setReg x b).advance :=
  .of_advance (List.Subset.refl _) (s.rnd_onlyWrites x b) (s.consumeRandom.setReg_advance_otherRegs x b)
    ⟨rfl, rfl, rfl, rfl, ⟨rfl, rfl⟩, ⟨rfl, rfl⟩⟩

theorem Completed.drw (x y : Reg) (n : Nibble) (cv : Canvas) : Completed (.drw x y n) s (s.showCanvas cv).advance :=
  .of_advance (by simp [instrWrites]) (s.showCanvas_advance_onlyWrites cv) (s.showCanvas_advance_otherRegs cv)
    ⟨rfl, rfl, rfl, rfl, ⟨rfl, rfl⟩, ⟨rfl, rfl⟩⟩

theorem Completed.ldm (x : Reg) :
    Completed (.ldm x) s (s.setRegsFrom 0 (s.bytesFrom s.dataAddress (x.val + 1))).advance := by
  have hlen := s.length_bytesFrom s.dataAddress (x.val + 1)
  refine .of_advance (by simp [instrWrites]) (s.setRegsFrom_advance_onlyWrites _ _) (fun y hy => ?_) ?_
  · refine s.reg_setRegsFrom_past _ (hlen.trans_le x.isLt) y (hlen.trans_le ?_)
    simpa [instrRegs] using hy
  · rw [s.setRegsFrom_eq]
    exact ⟨rfl, rfl, rfl, rfl, ⟨rfl, rfl⟩, ⟨rfl, rfl⟩⟩

end

/-! ### Every instruction -/

/-- An out-of-bounds data access raises what the instruction can raise (R143). -/
theorem raisesOrCompletes_of_outOfBounds {i : Instr} {s : State}
    (h : exec i s = .next (s.raise (outOfBounds (max s.dataAddress 4096))))
    (hi : instrFault i = some .outOfBoundsMemoryAccess) : RaisesOrCompletes i s :=
  .inl ⟨_, h, hi, outOfBounds_infoOk s.i.isLt⟩

/-- RET, CALL, DRW, BCD, STM and LDM by whether they find what they need; the other instructions always complete. -/
theorem exec_raisesOrCompletes (i : Instr) (s : State) : RaisesOrCompletes i s := by
  cases i with
  | ret =>
    rcases Nat.eq_zero_or_pos s.sp.val with hempty | hsome
    · exact .inl ⟨_, exec_ret_of_empty s hempty, rfl, rfl⟩
    · exact .inr ⟨_, exec_ret_of_some s hsome, .ret hsome⟩
  | call nnn =>
    rcases Nat.lt_or_ge s.sp.val 16 with hroom | hfull
    · exact .inr ⟨_, exec_call_of_room nnn s hroom, .call nnn hroom⟩
    · exact .inl ⟨_, exec_call_of_full nnn s (by omega), rfl, rfl⟩
  | drw x y n =>
    by_cases hfit : n.toNat = 0 ∨ s.dataAddress + n.toNat ≤ 4096
    · exact .inr ⟨_, exec_drw_of_fits s x y n hfit, .drw x y n _⟩
    · obtain ⟨hn, hout⟩ := not_or.mp hfit
      exact raisesOrCompletes_of_outOfBounds (exec_drw_outside s x y n hn (not_le.mp hout)) rfl
  | bcd x =>
    rcases Nat.lt_or_ge 4096 (s.dataAddress + (bcdDigits (s.reg x)).length) with hout | hfit
    · exact raisesOrCompletes_of_outOfBounds (exec_bcd_outside s x hout) rfl
    · exact .inr ⟨_, exec_bcd_of_fits s x hfit, .putBytes (by simp [instrWrites]) _ hfit⟩
  | stm x =>
    rcases Nat.lt_or_ge 4096 (s.dataAddress + (s.regsUpTo x).length) with hout | hfit
    · exact raisesOrCompletes_of_outOfBounds (exec_stm_outside s x hout) rfl
    · exact .inr ⟨_, exec_stm_of_fits s x hfit, .putBytes (by simp [instrWrites]) _ hfit⟩
  | ldm x =>
    rcases Nat.lt_or_ge 4096 (s.dataAddress + (x.val + 1)) with hout | hfit
    · exact raisesOrCompletes_of_outOfBounds (exec_ldm_outside s x hout) rfl
    · exact .inr ⟨_, exec_ldm_of_fits s x hfit, .ldm x⟩
  | jp nnn => exact .inr ⟨_, exec_jp nnn s, .setPc (List.Subset.refl _) fun _ => zextAddr_toNat_le_bound nnn⟩
  | jpv0 nnn => exact .inr ⟨_, exec_jpv0 nnn s, .setPc (List.Subset.refl _) fun _ => jumpOffset_toNat_le nnn _⟩
  | sei | snei | ser | sner | skp | sknp => exact .inr ⟨_, rfl, .skipIf (List.Subset.refl _)⟩
  | ldi | addi | mov | or | and | xor | lddt => exact .inr ⟨_, rfl, .setReg (List.Subset.refl _) rfl⟩
  | add | sub | shr | subn | shl => exact .inr ⟨_, rfl, .setResultAndFlag (List.Subset.refl _) rfl⟩
  | lda | adda | font => exact .inr ⟨_, rfl, .setIndex (List.Subset.refl _)⟩
  | rnd x nn => exact .inr ⟨_, exec_rnd x nn s, .rnd x nn _⟩
  | wkey x => exact .inr ⟨_, exec_wkey x s, .wkey x⟩
  | cls =>
    exact .inr ⟨_, exec_cls s, .of_advance_noRegs (List.Subset.refl _) (s.setDisplay_advance_onlyWrites _)
      (by simp [instrWrites]) ⟨rfl, rfl, rfl, rfl, ⟨rfl, rfl⟩, ⟨rfl, rfl⟩⟩⟩
  | stdt x =>
    exact .inr ⟨_, exec_stdt x s, .of_advance_noRegs (List.Subset.refl _) (s.setDelay_advance_onlyWrites _)
      (by simp [instrWrites]) ⟨rfl, rfl, rfl, rfl, ⟨rfl, rfl⟩, ⟨rfl, rfl⟩⟩⟩
  | stst x =>
    exact .inr ⟨_, exec_stst x s, .of_advance_noRegs (List.Subset.refl _) (s.setSound_advance_onlyWrites _)
      (by simp [instrWrites]) ⟨rfl, rfl, rfl, rfl, ⟨rfl, rfl⟩, ⟨rfl, rfl⟩⟩⟩

/-- An answered state is the fault or the completion. -/
theorem exec_cases {i : Instr} {s t : State} (h : exec i s = .next t) :
    (∃ e, t = s.raise e ∧ instrFault i = some e.kind ∧ e.InfoOk) ∨ Completed i s t := by
  rcases exec_raisesOrCompletes i s with ⟨e, he, hkind, hinfo⟩ | ⟨u, hu, hcompleted⟩
  · exact .inl ⟨e, Host.Outcome.next.inj (h.symm.trans he), hkind, hinfo⟩
  · exact .inr (Host.Outcome.next.inj (h.symm.trans hu) ▸ hcompleted)

/-- An instruction that can raise owns `run_state` and the fault record (R37, R143). -/
theorem raise_subset_instrWrites {i : Instr} {kind : Fault} (h : instrFault i = some kind) :
    [Piece.run, .fault] ⊆ instrWrites i := by
  cases i with
  | ret | call | drw | bcd | stm | ldm => simp [instrWrites]
  | _ => simp [instrFault] at h

/-- An instruction writes the pieces R37 lists for it, whether it completes or raises. -/
theorem exec_onlyWrites {i : Instr} {s t : State} (h : exec i s = .next t) : OnlyWrites (instrWrites i) s t := by
  rcases exec_cases h with ⟨e, rfl, hkind, -⟩ | hcompleted
  · exact (s.raise_onlyWrites e).mono (raise_subset_instrWrites hkind)
  · exact hcompleted.writes

/-- An instruction writes the general registers R37 lists for it. -/
theorem exec_otherRegs {i : Instr} {s t : State} (h : exec i s = .next t) : OtherRegs (instrRegs i) s t := by
  rcases exec_cases h with ⟨e, rfl, -⟩ | hcompleted
  · exact (s.raise_onlyWrites e).otherRegs (by decide) _
  · exact hcompleted.regs

/-- RND alone owns the Random Source (R102). -/
theorem random_notMem_instrWrites {i : Instr} (h : ∀ x nn, i ≠ .rnd x nn) : Piece.random ∉ instrWrites i := by
  cases i with
  | rnd x nn => exact absurd rfl (h x nn)
  | _ => simp [instrWrites]

/-! ### The flag writers (R21) -/

/-- DRW leaves the collision in VF unless it faults (R132). -/
theorem exec_drw_vf {s t : State} {x y : Reg} {n : Nibble} (h : exec (.drw x y n) s = .next t)
    (hok : t.runState ≠ .faulted) : ∃ b, t.reg vf = flagByte b := by
  by_cases hfit : n.toNat = 0 ∨ s.dataAddress + n.toNat ≤ 4096
  · obtain rfl := Host.Outcome.next.inj ((exec_drw_of_fits s x y n hfit).symm.trans h)
    exact ⟨_, s.vf_showCanvas_advance _⟩
  · obtain ⟨hn, hout⟩ := not_or.mp hfit
    obtain rfl := Host.Outcome.next.inj ((exec_drw_outside s x y n hn (not_le.mp hout)).symm.trans h)
    exact absurd (s.runState_raise _) hok

/-- The six leave a flag in VF unless they fault. -/
theorem exec_flagWriter {i : Instr} {s t : State} {x y : Reg} {n : Nibble}
    (hi : i ∈ [Instr.add x y, .sub x y, .shr x y, .subn x y, .shl x y, .drw x y n]) (h : exec i s = .next t)
    (hok : t.runState ≠ .faulted) : ∃ b, t.reg vf = flagByte b := by
  simp only [List.mem_cons, List.not_mem_nil, or_false] at hi
  rcases hi with rfl | rfl | rfl | rfl | rfl | rfl
  iterate 5
    obtain rfl := Host.Outcome.next.inj h
    exact ⟨_, s.vf_setResultAndFlag_advance x _ _⟩
  exact exec_drw_vf h hok

end Sys2Proof.Machine

open Sys2Proof Sys2Proof.Machine

/-- Settles O16: a completed instruction leaves the record, a raising one has its one kind. -/
theorem instructionsRaiseOnlyTheirFault : Obligations.InstructionsRaiseOnlyTheirFault := by
  intro i s t h
  rcases exec_cases h with ⟨e, rfl, hkind, -⟩ | hcompleted
  · exact .inr ⟨e.kind, hkind, rfl, rfl⟩
  · exact .inl hcompleted.record

/-- Settles O33: RND is a draw and one register written; the other instructions do not own the Random Source. -/
theorem randomRule : Obligations.RandomRule := by
  refine ⟨decode_familyC, fun s x nn r rest hdraw => ?_, fun i s t hi h =>
    exec_onlyWrites h .random (random_notMem_instrWrites hi)⟩
  obtain ⟨hbyte, hrest⟩ : s.nextRandom = r ∧ s.injected.tail = rest := by
    rcases hdraw with hinjected | ⟨hnone, rfl, rfl⟩
    · simp [State.nextRandom, hinjected]
    · simp [State.nextRandom, hnone]
  subst hbyte hrest
  exact ⟨_, exec_rnd x nn s, State.reg_setReg_advance_self _ x _, rfl, rfl,
    s.consumeRandom.setReg_advance_otherRegs x _, rfl, s.rnd_onlyWrites x _⟩

/-- Settles O34: the flag writers write a flag byte last, and the other instructions only their own registers. -/
theorem flagRegisterRule : Obligations.FlagRegisterRule := by
  refine ⟨fun i s t x y n hi h hok => ?_, fun i s t h => exec_otherRegs h vf⟩
  obtain ⟨b, hb⟩ := exec_flagWriter hi h hok
  exact hb ▸ flagByte_zero_or_one b

end

section
/-! PROOFS. The timers against the instructions (R7, R28, R151): an instruction that names no timer carries other timers
along. -/

namespace Sys2Proof.Machine

/-! ### The operations carry other timers along -/

section
variable (s : State) (d b : Byte)

theorem State.skipIf_withTimers (taken : Bool) :
    (s.withTimers d b).skipIf taken = (s.skipIf taken).withTimers d b := by
  cases taken <;> rfl

theorem State.putBytes_withTimers (a : Nat) (bs : List Byte) :
    (s.withTimers d b).putBytes a bs = (s.putBytes a bs).withTimers d b := by
  induction bs generalizing s a with
  | nil => rfl
  | cons c bs ih => exact ih (s.putByte a c) (a + 1)

theorem State.setRegsFrom_withTimers (j : Nat) (bs : List Byte) :
    (s.withTimers d b).setRegsFrom j bs = (s.setRegsFrom j bs).withTimers d b := by
  induction bs generalizing s j with
  | nil => rfl
  | cons c bs ih => exact ih (s.setReg (Fin.ofNat 16 j) c) (j + 1)

end

/-- The instruction does not name a timer. -/
def NamesNoTimer (i : Instr) : Prop := ∀ x, i ≠ .lddt x ∧ i ≠ .stdt x ∧ i ≠ .stst x

/-- From a state with other timers the instruction ends as from this one, with those timers. -/
def CarriesTimers (i : Instr) (s : State) (d b : Byte) : Prop :=
  ∃ t, exec i s = .next t ∧ exec i (s.withTimers d b) = .next (t.withTimers d b)

/-- RET, CALL, DRW, BCD, STM and LDM find what they need with other timers exactly when they find it with these. -/
theorem exec_carriesTimers {i : Instr} (hi : NamesNoTimer i) (s : State) (d b : Byte) : CarriesTimers i s d b := by
  cases i with
  | ret =>
    rcases Nat.eq_zero_or_pos s.sp.val with hempty | hsome
    · exact ⟨_, exec_ret_of_empty s hempty, exec_ret_of_empty (s.withTimers d b) hempty⟩
    · exact ⟨_, exec_ret_of_some s hsome, exec_ret_of_some (s.withTimers d b) hsome⟩
  | call nnn =>
    rcases Nat.lt_or_ge s.sp.val 16 with hroom | hfull
    · exact ⟨_, exec_call_of_room nnn s hroom, exec_call_of_room nnn (s.withTimers d b) hroom⟩
    · have hsp : s.sp.val = 16 := by omega
      exact ⟨_, exec_call_of_full nnn s hsp, exec_call_of_full nnn (s.withTimers d b) hsp⟩
  | drw x y n =>
    by_cases hfit : n.toNat = 0 ∨ s.dataAddress + n.toNat ≤ 4096
    · exact ⟨_, exec_drw_of_fits s x y n hfit, exec_drw_of_fits (s.withTimers d b) x y n hfit⟩
    · obtain ⟨hn, hout⟩ := not_or.mp hfit
      exact ⟨_, exec_drw_outside s x y n hn (not_le.mp hout),
        exec_drw_outside (s.withTimers d b) x y n hn (not_le.mp hout)⟩
  | bcd x =>
    rcases Nat.lt_or_ge 4096 (s.dataAddress + (bcdDigits (s.reg x)).length) with hout | hfit
    · exact ⟨_, exec_bcd_outside s x hout, exec_bcd_outside (s.withTimers d b) x hout⟩
    · refine ⟨_, exec_bcd_of_fits s x hfit, (exec_bcd_of_fits (s.withTimers d b) x hfit).trans ?_⟩
      rw [s.putBytes_withTimers]
      rfl
  | stm x =>
    rcases Nat.lt_or_ge 4096 (s.dataAddress + (s.regsUpTo x).length) with hout | hfit
    · exact ⟨_, exec_stm_outside s x hout, exec_stm_outside (s.withTimers d b) x hout⟩
    · refine ⟨_, exec_stm_of_fits s x hfit, (exec_stm_of_fits (s.withTimers d b) x hfit).trans ?_⟩
      rw [s.putBytes_withTimers]
      rfl
  | ldm x =>
    rcases Nat.lt_or_ge 4096 (s.dataAddress + (x.val + 1)) with hout | hfit
    · exact ⟨_, exec_ldm_outside s x hout, exec_ldm_outside (s.withTimers d b) x hout⟩
    · refine ⟨_, exec_ldm_of_fits s x hfit, (exec_ldm_of_fits (s.withTimers d b) x hfit).trans ?_⟩
      rw [s.setRegsFrom_withTimers]
      rfl
  | sei | snei | ser | sner | skp | sknp =>
    exact ⟨_, rfl, congrArg Host.Outcome.next (s.skipIf_withTimers d b _)⟩
  | lddt x => exact absurd rfl (hi x).1
  | stdt x => exact absurd rfl (hi x).2.1
  | stst x => exact absurd rfl (hi x).2.2
  | _ => exact ⟨_, rfl, rfl⟩

theorem exec_withTimers {i : Instr} (hi : NamesNoTimer i) {s t : State} (h : exec i s = .next t) (d b : Byte) :
    exec i (s.withTimers d b) = .next (t.withTimers d b) := by
  obtain ⟨u, hu, hcarried⟩ := exec_carriesTimers hi s d b
  obtain rfl := Host.Outcome.next.inj (h.symm.trans hu)
  exact hcarried

/-- An instruction that names no timer owns none (R37). -/
theorem timers_notMem_instrWrites {i : Instr} (hi : NamesNoTimer i) :
    Piece.delay ∉ instrWrites i ∧ Piece.sound ∉ instrWrites i := by
  cases i with
  | stdt x => exact absurd rfl (hi x).2.1
  | stst x => exact absurd rfl (hi x).2.2
  | _ => simp [instrWrites]

/-- From RUN an instruction ends in RUN, suspended, or in a fault. -/
theorem exec_runState {i : Instr} {s t : State} (h : exec i s = .next t) :
    t.runState = .faulted ∨ t.runState = s.runState ∨ t.runState = .waitKey := by
  rcases exec_cases h with ⟨e, rfl, -⟩ | hcompleted
  · exact .inl rfl
  · rcases hcompleted.run with hrun | ⟨x, -, rfl⟩
    · exact .inr (.inl hrun.1)
    · exact .inr (.inr rfl)

end Sys2Proof.Machine

open Sys2Proof Sys2Proof.Machine

/-- Settles O59: in RUN a `Tick` writes new timers, and the instruction carries them along. -/
theorem tickCommutesWithInstruction : Obligations.TickCommutesWithInstruction := by
  intro i s t hi hrun h hok
  have hactive : t.runState ∈ [RunState.idle, .run, .waitKey] := by
    rcases exec_runState h with hfault | hsame | hwait
    · exact absurd hfault hok
    · simp [hsame, hrun]
    · simp [hwait]
  obtain ⟨hdelay, hsound⟩ := timers_notMem_instrWrites hi
  have hdt : t.dt = s.dt := exec_onlyWrites h .delay hdelay
  have hst : t.st = s.st := exec_onlyWrites h .sound hsound
  rw [s.opTick_of_active (by simp [hrun]), t.opTick_of_active hactive, hdt, hst]
  exact exec_withTimers hi h _ _

/-- Settles O60: LDDT, STDT and STST one by one; the other instructions carry another ST along. -/
theorem soundTimerIsNeverRead : Obligations.SoundTimerIsNeverRead := by
  intro i s t b h
  by_cases hi : NamesNoTimer i
  · have hno : ¬ ∃ x, i = .stst x := fun ⟨x, hx⟩ => (hi x).2.2 hx
    have hdt : t.dt = s.dt := exec_onlyWrites h .delay (timers_notMem_instrWrites hi).1
    rw [if_neg hno]
    have hself : t.setSound b = t.withTimers s.dt b := hdt ▸ rfl
    rw [hself]
    exact exec_withTimers hi h s.dt b
  · simp only [NamesNoTimer, not_forall, not_and_or, not_not] at hi
    obtain ⟨x, rfl | rfl | rfl⟩ := hi
    all_goals
      obtain rfl := Host.Outcome.next.inj h
      simp only [reduceCtorEq, exists_false, if_false, Instr.stst.injEq, exists_eq', if_true]
      rfl

end

section
/-! PROOFS. What an operation does, said once (R6, R149), and from it the precision of faults, the transitions of
`run_state` and the ownership of state. -/

namespace Sys2Proof.Machine

/-- Everything an operation can do, case by case: the table of R149 with the two ends of an executed instruction. -/
inductive Performs : Operation → State → State → Prop
  /-- `Reset` (R170). -/
  | reset (s : State) : Performs .reset s s.opReset
  /-- `Load` in IDLE of an image that fits (R56). -/
  | load {s : State} {bytes : List Byte} (hidle : s.runState = .idle) (hlen : bytes.length ≤ 3584) :
      Performs (.load bytes) s ((s.putBytes 512 bytes).setRun .run)
  /-- `Load` in IDLE of an image that does not fit (R164). -/
  | loadFault {s : State} {bytes : List Byte} (hidle : s.runState = .idle) (hlen : 3584 < bytes.length) :
      Performs (.load bytes) s (s.raise ⟨.romTooLarge, 0⟩)
  /-- `Step` in RUN that raises, before or at execution (R143). -/
  | stepFault {s : State} {e : Trap} (hrun : s.runState = .run) (he : e.InfoOk) : Performs .step s (s.raise e)
  /-- `Step` in RUN that completes an instruction (R72). -/
  | stepCompleted {s t : State} {op : Word} {i : Instr} (hrun : s.runState = .run) (hfetch : s.fetch = .ok op)
      (hdecode : decode op = .valid i) (hcompleted : Completed i s t) : Performs .step s t
  /-- `Tick` where the timers run (R150). -/
  | tick {s : State} (hactive : s.runState ∈ [RunState.idle, .run, .waitKey]) :
      Performs .tick s (s.withTimers (countDown s.dt) (countDown s.st))
  /-- A new press that resumes (R154). -/
  | press {s : State} {k : Key} (hwait : s.runState = .waitKey) (hreleased : s.key k = false) :
      Performs (.keyEvent k true) s (s.resumed k)
  /-- Every other key event (R153). -/
  | level {s : State} {k : Key} {pressed : Bool}
      (hother : ¬ (s.runState = .waitKey ∧ pressed = true ∧ s.key k = false)) :
      Performs (.keyEvent k pressed) s (s.setKey k pressed)
  /-- `Halt` where the core is not stopped (R156). -/
  | halt {s : State} (hactive : s.runState ∈ [RunState.idle, .run, .waitKey]) : Performs .halt s (s.setRun .halted)
  /-- An operation without effect in this run state (R149; D33). -/
  | nothing {op : Operation} {s : State} (hop : ∀ k pressed, op ≠ .keyEvent k pressed) : Performs op s s

theorem runState_active_or_stopped (r : RunState) :
    r ∈ [RunState.idle, .run, .waitKey] ∨ r ∈ [RunState.halted, .faulted] := by
  cases r <;> decide

theorem driverStep_performs {s t : State} (h : driverStep s = .next t) : Performs .step s t := by
  rcases driverStep_cases s t h with
    ⟨-, rfl⟩ | ⟨hrun, ⟨e, hfetch, rfl⟩ | ⟨op, hfetch, hinvalid, rfl⟩ | ⟨op, i, hfetch, hdecode, hexec⟩⟩
  · exact .nothing nofun
  · refine .stepFault hrun ?_
    rw [s.fetch_eq] at hfetch
    split at hfetch
    · cases hfetch
    · exact Except.error.inj hfetch ▸ outOfBounds_infoOk s.pc.isLt
  · exact .stepFault hrun hinvalid
  · rcases exec_cases hexec with ⟨e, rfl, -, hinfo⟩ | hcompleted
    · exact .stepFault hrun hinfo
    · exact .stepCompleted hrun hfetch hdecode hcompleted

theorem perform_performs {op : Operation} {s t : State} (h : perform op s = .next t) : Performs op s t := by
  cases op with
  | reset => exact Host.Outcome.next.inj h ▸ .reset s
  | step => exact driverStep_performs h
  | load bytes =>
    by_cases hidle : s.runState = .idle
    · rcases Nat.lt_or_ge 3584 bytes.length with hlen | hlen
      · rw [perform_load_tooLarge s bytes hidle hlen] at h
        exact Host.Outcome.next.inj h ▸ .loadFault hidle hlen
      · rw [perform_load_fits s bytes hidle hlen] at h
        exact Host.Outcome.next.inj h ▸ .load hidle hlen
    · rw [perform_load_notIdle s bytes hidle] at h
      exact Host.Outcome.next.inj h ▸ .nothing nofun
  | tick =>
    rcases runState_active_or_stopped s.runState with hactive | hstopped
    · rw [perform, s.opTick_of_active hactive] at h
      exact Host.Outcome.next.inj h ▸ .tick hactive
    · rw [perform, s.opTick_of_stopped hstopped] at h
      exact Host.Outcome.next.inj h ▸ .nothing nofun
  | keyEvent k pressed =>
    by_cases hpress : s.runState = .waitKey ∧ pressed = true ∧ s.key k = false
    · obtain ⟨hwait, rfl, hreleased⟩ := hpress
      rw [perform, s.opKeyEvent_of_newPress k hwait hreleased] at h
      exact Host.Outcome.next.inj h ▸ .press hwait hreleased
    · rw [perform, s.opKeyEvent_of_not_newPress k pressed hpress] at h
      exact Host.Outcome.next.inj h ▸ .level hpress
  | halt =>
    rcases runState_active_or_stopped s.runState with hactive | hstopped
    · rw [perform, s.opHalt_of_active hactive] at h
      exact Host.Outcome.next.inj h ▸ .halt hactive
    · rw [perform, s.opHalt_of_stopped hstopped] at h
      exact Host.Outcome.next.inj h ▸ .nothing nofun

/-- Where a completed instruction of a `Step` leaves `run_state` (R149). -/
theorem Completed.runState_of_run {i : Instr} {s t : State} (h : Completed i s t) (hrun : s.runState = .run) :
    t.runState = .run ∨ t.runState = .waitKey := by
  rcases h.run with hkept | ⟨x, -, rfl⟩
  · exact .inl (hkept.1.trans hrun)
  · exact .inr rfl

/-! ### Ownership (R37) -/

/-- `Reset` owns everything but what the core does not own (R37; log entry 13). -/
theorem State.opReset_onlyWrites (s : State) : OnlyWrites (operationWrites .reset) s s.opReset := by
  intro p hp
  refine s.opReset_unchanged ?_
  cases p with
  | keys | params | schedule | random => simp
  | _ => simp [operationWrites] at hp

/-- An operation other than `Step` writes the pieces R37 lists for it. -/
theorem Performs.onlyWrites {op : Operation} {s t : State} (h : Performs op s t) (hop : op ≠ .step) :
    OnlyWrites (operationWrites op) s t := by
  cases h with
  | reset => exact s.opReset_onlyWrites
  | load => exact (s.load_onlyWrites _).mono (by simp [operationWrites])
  | loadFault => exact (s.raise_onlyWrites _).mono (by simp [operationWrites])
  | stepFault | stepCompleted => exact absurd rfl hop
  | tick => exact s.withTimers_onlyWrites _ _
  | press => exact s.resumed_onlyWrites _
  | level => exact (s.setKey_onlyWrites_keys _ _).mono (by simp [operationWrites])
  | halt => exact s.setRun_onlyWrites _
  | nothing => exact OnlyWrites.refl _ s

/-- A key event writes a register only as the resuming press, and then only the one waited for (R154). -/
theorem Performs.keyEvent_frame {k : Key} {pressed : Bool} {s t : State} (h : Performs (.keyEvent k pressed) s t) :
    OtherRegs [s.waitReg] s t ∧
      (¬ (s.runState = .waitKey ∧ pressed = true ∧ s.key k = false) → OnlyWrites [.keys] s t) := by
  cases h with
  | press hwait hreleased => exact ⟨s.resumed_otherRegs k, fun hother => absurd ⟨hwait, rfl, hreleased⟩ hother⟩
  | level =>
    have hkeys := s.setKey_onlyWrites_keys k pressed
    exact ⟨hkeys.otherRegs (by decide) _, fun _ => hkeys⟩
  | nothing hop => exact absurd rfl (hop k pressed)

/-- A `Step` writes the fault record, or what the fetched instruction may write (R37). -/
theorem Performs.step_frame {s t : State} (h : Performs .step s t) :
    OnlyWrites [.run, .fault] s t ∨
      ∃ i, s.fetch = .ok (encode i) ∧ OnlyWrites (instrWrites i) s t ∧ OtherRegs (instrRegs i) s t := by
  cases h with
  | stepFault => exact .inl (s.raise_onlyWrites _)
  | stepCompleted _ hfetch hdecode hcompleted =>
    exact .inr ⟨_, encode_of_decode hdecode ▸ hfetch, hcompleted.writes, hcompleted.regs⟩
  | nothing => exact .inl (OnlyWrites.refl _ s)

end Sys2Proof.Machine

open Sys2Proof Sys2Proof.Machine

/-- Settles O15: the only ways into FAULTED are the two that raise, and raising writes the record alone. -/
theorem faultsArePrecise : Obligations.FaultsArePrecise := by
  intro op s t h hs ht
  cases perform_performs h with
  | loadFault | stepFault => exact ⟨rfl, s.raise_onlyWrites _⟩
  | stepCompleted hrun _ _ hcompleted => rcases hcompleted.runState_of_run hrun with hr | hr <;> simp [hr] at ht
  | tick | level | nothing => exact absurd ht hs
  | reset | load | press | halt => cases ht

/-- Settles O55: the cases of an operation that change `run_state`. -/
theorem runStateTransitions : Obligations.RunStateTransitions := by
  intro op s t h hne
  cases perform_performs h with
  | reset => exact .inl ⟨rfl, rfl⟩
  | load hidle hlen => exact .inr (.inl ⟨hidle, _, rfl, (if_pos hlen).symm⟩)
  | loadFault hidle hlen => exact .inr (.inl ⟨hidle, _, rfl, (if_neg (not_le.mpr hlen)).symm⟩)
  | halt hactive => exact .inr (.inr (.inl ⟨hactive, rfl, rfl⟩))
  | stepFault hrun => exact .inr (.inr (.inr (.inl ⟨hrun, rfl, by simp⟩)))
  | stepCompleted hrun _ _ hcompleted =>
    rcases hcompleted.runState_of_run hrun with hr | hr
    · exact absurd (hr.trans hrun.symm) hne
    · exact .inr (.inr (.inr (.inl ⟨hrun, rfl, by simp [hr]⟩)))
  | press hwait hreleased => exact .inr (.inr (.inr (.inr ⟨hwait, ⟨_, rfl, hreleased⟩, rfl⟩)))
  | tick | level | nothing => exact absurd rfl hne

/-- Settles O56: the frames of an instruction and of an operation, case by case. -/
theorem writeOwnership : Obligations.WriteOwnership :=
  ⟨fun _ _ _ h => ⟨exec_onlyWrites h, exec_otherRegs h⟩, fun _ _ _ hop h => (perform_performs h).onlyWrites hop,
    fun _ _ _ _ h => (perform_performs h).keyEvent_frame, fun _ _ h => (perform_performs h).step_frame⟩

end

section
/-! PROOFS. The invariant of the machine: it holds after reset, and every case of an operation keeps it (R23, R32, R33, R81,
R149). -/

namespace Sys2Proof.Machine

/-! ### The fault record (R33) -/

/-- Without a fault the record is empty. -/
theorem State.faultRecordOk_of_noFault {s : State} (hrun : s.runState ≠ .faulted)
    (hrecord : s.faultKind = none ∧ s.faultInfo = 0) : s.faultRecordOk := by
  simp [State.faultRecordOk, hrun, hrecord]

theorem State.noFault_of_faultRecordOk {s : State} (h : s.faultRecordOk) (hrun : s.runState ≠ .faulted) :
    s.faultKind = none ∧ s.faultInfo = 0 := by
  obtain ⟨hiff, hinfo⟩ := h
  have hkind : s.faultKind = none := not_not.mp (mt hiff.mpr hrun)
  rw [hkind] at hinfo
  exact ⟨hkind, hinfo⟩

/-- A raised fault leaves a consistent record when `fault_info` is what its kind records. -/
theorem State.faultRecordOk_raise (s : State) {e : Trap} (he : e.InfoOk) : (s.raise e).faultRecordOk := by
  obtain ⟨kind, info⟩ := e
  refine ⟨by simp, ?_⟩
  cases kind <;> exact he

/-! ### After reset (R170) -/

theorem State.initial_invariant (c : Config) (keys : Vector Bool 16) (ops : List Operation) (rs : List Byte) (n : Nat) :
    (State.initial c keys ops rs n).Invariant where
  memoryCanonical := rfl
  pcBounded := by
    change (0x0200#16).toNat ≤ 0x10FE
    decide
  stackBounded := fun j => by
    rw [State.stack_initial]
    decide
  waitNamesWkey := nofun
  faultRecord := State.faultRecordOk_of_noFault nofun ⟨rfl, rfl⟩
  idleIsReset := fun _ => rfl

/-! ### What the operations keep -/

section
variable {s : State} (h : s.Invariant)
include h

theorem State.Invariant.noFault (hrun : s.runState ≠ .faulted) : s.faultKind = none ∧ s.faultInfo = 0 :=
  State.noFault_of_faultRecordOk h.faultRecord hrun

/-- In WAIT_KEY the suspended FX0A was fetched within memory (R122). -/
theorem State.Invariant.pc_of_waitKey (hwait : s.runState = .waitKey) : s.pc.toNat ≤ 4094 := by
  obtain ⟨op, hfetch, -⟩ := h.waitNamesWkey hwait
  exact s.fetch_ok_iff.mp ⟨op, hfetch⟩

/-- The schedule is no core state (log entry 2). -/
theorem State.Invariant.setSchedule (ops : List Operation) : (s.setSchedule ops).Invariant :=
  ⟨h.memoryCanonical, h.pcBounded, h.stackBounded, h.waitNamesWkey, h.faultRecord,
    fun hidle => congrArg (·.setSchedule ops) (h.idleIsReset hidle)⟩

/-- The key levels are no core state (R34). -/
theorem State.Invariant.setKey (k : Key) (b : Bool) : (s.setKey k b).Invariant :=
  ⟨h.memoryCanonical, h.pcBounded, h.stackBounded, h.waitNamesWkey, h.faultRecord,
    fun hidle => congrArg (·.setKey k b) (h.idleIsReset hidle)⟩

/-- In IDLE both timers are 0, and a `Tick` holds them there (R150). -/
theorem State.Invariant.tick : (s.withTimers (countDown s.dt) (countDown s.st)).Invariant := by
  refine ⟨h.memoryCanonical, h.pcBounded, h.stackBounded, h.waitNamesWkey, h.faultRecord, fun hidle => ?_⟩
  have hreset := h.idleIsReset hidle
  have hdt : countDown s.dt = s.dt := by
    rw [hreset]
    rfl
  have hst : countDown s.st = s.st := by
    rw [hreset]
    rfl
  rw [hdt, hst]
  exact hreset

theorem State.Invariant.raise {e : Trap} (he : e.InfoOk) : (s.raise e).Invariant :=
  ⟨h.memoryCanonical, h.pcBounded, h.stackBounded, nofun, s.faultRecordOk_raise he, nofun⟩

theorem State.Invariant.halt (hactive : s.runState ∈ [RunState.idle, .run, .waitKey]) : (s.setRun .halted).Invariant := by
  have hnofault : s.runState ≠ .faulted := by
    rintro hfault
    simp [hfault] at hactive
  exact ⟨h.memoryCanonical, h.pcBounded, h.stackBounded, nofun,
    State.faultRecordOk_of_noFault nofun (h.noFault hnofault), nofun⟩

/-- The resumption steps PC over the FX0A (R122). -/
theorem State.Invariant.press (hwait : s.runState = .waitKey) (k : Key) : (s.resumed k).Invariant :=
  ⟨h.memoryCanonical, (pc_add_toNat_le (h.pc_of_waitKey hwait) 2).trans (by decide), h.stackBounded, nofun,
    State.faultRecordOk_of_noFault nofun (h.noFault (by simp [hwait])), nofun⟩

/-- The image lies within memory (R56). -/
theorem State.Invariant.load (hidle : s.runState = .idle) {bytes : List Byte} (hlen : bytes.length ≤ 3584) :
    ((s.putBytes 512 bytes).setRun .run).Invariant := by
  have hmemory := s.wf_putBytes h.memoryCanonical 512 bytes (.inr (by omega))
  rw [s.putBytes_eq]
  exact ⟨hmemory, h.pcBounded, h.stackBounded, nofun,
    State.faultRecordOk_of_noFault nofun (h.noFault (by simp [hidle])), nofun⟩

/-- An instruction that completes, fetched in RUN (R72). -/
theorem State.Invariant.completed {t : State} {op : Word} {i : Instr} (hrun : s.runState = .run)
    (hfetch : s.fetch = .ok op) (hdecode : decode op = .valid i) (hcompleted : Completed i s t) : t.Invariant := by
  have hpc : s.pc.toNat ≤ 4094 := s.fetch_ok_iff.mp ⟨op, hfetch⟩
  obtain ⟨hkind, hinfo⟩ := h.noFault (by simp [hrun])
  have htrun := hcompleted.runState_of_run hrun
  refine ⟨hcompleted.memory h.memoryCanonical, hcompleted.pc hpc h.stackBounded, hcompleted.stack hpc h.stackBounded,
    fun hwait => ?_, ?_, fun hidle => ?_⟩
  · rcases hcompleted.run with hkept | ⟨x, rfl, rfl⟩
    · simp [hkept.1, hrun] at hwait
    · exact ⟨op, hfetch, hdecode⟩
  · refine State.faultRecordOk_of_noFault ?_ ⟨hcompleted.record.1.trans hkind, hcompleted.record.2.trans hinfo⟩
    rcases htrun with hr | hr <;> simp [hr]
  · rcases htrun with hr | hr <;> simp [hr] at hidle

end

theorem Performs.keepsInvariant {op : Operation} {s t : State} (hperforms : Performs op s t) (h : s.Invariant) :
    t.Invariant := by
  cases hperforms with
  | reset => exact State.initial_invariant _ _ _ _ _
  | load hidle hlen => exact h.load hidle hlen
  | loadFault => exact h.raise rfl
  | stepFault _ he => exact h.raise he
  | stepCompleted hrun hfetch hdecode hcompleted => exact h.completed hrun hfetch hdecode hcompleted
  | tick => exact h.tick
  | press hwait => exact h.press hwait _
  | level => exact h.setKey _ _
  | halt hactive => exact h.halt hactive
  | nothing => exact h

end Sys2Proof.Machine

open Sys2Proof Sys2Proof.Machine

/-- Settles O57: a step performs one operation, whose every case keeps the invariant. -/
theorem everyStepKeepsInvariant : Obligations.EveryStepKeepsInvariant := by
  intro s t h hstep
  cases hsched : s.schedule with
  | nil =>
    rw [step_of_schedule_nil hsched] at hstep
    exact (driverStep_performs hstep).keepsInvariant h
  | cons op rest =>
    rw [step_of_schedule_cons hsched] at hstep
    exact (perform_performs hstep).keepsInvariant (h.setSchedule rest)

/-- Settles O58: the initial state field by field, and the reset state is one. -/
theorem resetMeetsInvariant : Obligations.ResetMeetsInvariant :=
  fun c keys ops rs n => ⟨State.initial_invariant c keys ops rs n, State.initial_invariant _ _ _ _ _⟩

end
